-- ==== Sys2Proof/Word.lean ====
section
/-! DEFINITION. The block's byte and word types and the names the spec gives its instances, registers, ports, lines and signals (R6, R8, R34, R35, R82, R84, R85, R86). -/

namespace Sys2Proof

/-- A byte: an unsigned 8-bit value (R8). -/
abbrev Byte := BitVec 8

/-- A 16-bit value: a transaction word (R80) or the Timer 1 counter (R27). -/
abbrev Word := BitVec 16

/-- The VIA instance number `k` of a transaction, carried beside the word (R80); `NVIA` = 2 (R6, D3). -/
inductive ViaId where
  | via0
  | via1
  deriving DecidableEq, Repr, Inhabited

/-- The instance that is not `k`. -/
def ViaId.other : ViaId → ViaId
  | .via0 => .via1
  | .via1 => .via0

/-- The three-valued signal of the bus, "a tagged variant with exactly the three cases" (R35). -/
inductive Signal where
  | asserted
  | negated
  | floating
  deriving DecidableEq, Repr, Inhabited

/-- The four control lines of a VIA (R33, R84). -/
inductive CtrlLine where
  | ca1
  | ca2
  | cb1
  | cb2
  deriving DecidableEq, Repr, Inhabited

/-- The two control lines that have an output mode (R84, R164). -/
inductive OutLine where
  | ca2
  | cb2
  deriving DecidableEq, Repr, Inhabited

/-- The two ports of a VIA (R85). -/
inductive Port where
  | a
  | b
  deriving DecidableEq, Repr, Inhabited

/-- The eight control lines of the parallel bus, in the order of the bus record (R36, R86). -/
inductive BusLine where
  | dav
  | eoi
  | ndac
  | nrfd
  | srq
  | atn
  | ren
  | ifc
  deriving DecidableEq, Repr, Inhabited

/-- The sixteen register offsets of a VIA, 0x0 to 0xF in order (R34, R82). -/
inductive Reg where
  | pb
  | pa
  | ddrb
  | ddra
  | t1lo
  | t1hi
  | t1llo
  | t1lhi
  | u8
  | u9
  | ua
  | acr
  | pcr
  | ifr
  | ie
  | uf
  deriving DecidableEq, Repr, Inhabited

end Sys2Proof
end

