-- ==== Sys2Proof/Config.lean ====
section
/-! DEFINITION. The block's parameters (R6): the defaults the spec states (DEDUCED, log entry 18; the PCR positions PRESUMED, log entry 13), and as uninterpreted constants the ones it leaves OPEN (VIA_BASE0, VIA_BASE1, CPU_ACCESSES) or leaves to the interleaving (R246). -/

namespace Sys2Proof

/-- `POLL_RETRIES`: failed samples in a row before a poll times out (R6, R216). -/
def Config.pollRetries : Nat := 500

/-- `MAX_INPUT`: bytes per input sequence (R6, R226). -/
def Config.maxInput : Nat := 80

/-- `TERMINATOR` (R6, R225): the literal 0x13 governs, not the source's gloss "carriage return" (conflict C8). -/
def Config.terminator : Byte := 0x13#8

/-- `TALK_MARK` (R6, R219 step 4). -/
def Config.talkMark : Byte := 0x40#8

/-- `SECOND_MARK` (R6, R219 step 11). -/
def Config.secondMark : Byte := 0x60#8

/-- `UNTALK_BYTE` (R6, R226). -/
def Config.untalkByte : Byte := 0x5F#8

/-- `NO_SECONDARY` (R6, R83, D17). -/
def Config.noSecondary : Byte := 0xFF#8

/-- The natural DIO byte of a released or cleared host (R41, R210, D12): bus form 0x00, driving nothing. -/
def Config.dioReleased : Byte := 0xFF#8

/-- `PCR_CA1_POL` (R6, R29): the one position the source itself gives. -/
def Config.pcrCa1Pol : Nat := 0

/-- `PCR_CA2_POL` (R6, R29, D4: the data-sheet layout, the spec's choice). -/
def Config.pcrCa2Pol : Nat := 2

/-- `PCR_CA2_OUT` (R6, R29, D4). -/
def Config.pcrCa2Out : Nat := 3

/-- `PCR_CB1_POL` (R6, R29, D4). -/
def Config.pcrCb1Pol : Nat := 4

/-- `PCR_CB2_POL` (R6, R29, D4). -/
def Config.pcrCb2Pol : Nat := 6

/-- `PCR_CB2_OUT` (R6, R29, D4). -/
def Config.pcrCb2Out : Nat := 7

/-- The window size of a VIA, `size() → 16` (R6, R60). -/
def Config.nreg : Nat := 16

/-- Does the 16-byte window at `base` avoid the two 8 KiB ROM images at 0xC000 and 0xE000 (R68)? -/
def Config.clearOfRom (base : Nat) : Bool :=
  decide (base + Config.nreg ≤ 0xC000) || decide (0x10000 ≤ base)

/-- The spec's two constraints on the OPEN bases (R68, D3): the windows overlap neither each other nor a ROM image. -/
def Config.basesLegal (base0 base1 : Nat) : Bool :=
  Config.clearOfRom base0 && Config.clearOfRom base1 &&
    (decide (base0 + Config.nreg ≤ base1) || decide (base1 + Config.nreg ≤ base0))

/-- OPEN (R6, D3; log entry 5): the pair of bases an embedding configures. No body: nothing can be proved of its value. -/
opaque Config.configuredBases : Nat × Nat

/-- `VIA_BASE0`, OPEN: the configured value where the configured pair meets R68's constraint. An illegal pair is replaced
by the pair (0, 16), so that every legal pair, and only a legal pair, is a value of the two constants (log entry 5). -/
def Config.viaBase0 : Nat :=
  if Config.basesLegal Config.configuredBases.1 Config.configuredBases.2 then Config.configuredBases.1 else 0

/-- `VIA_BASE1`, OPEN: see `Config.viaBase0`. -/
def Config.viaBase1 : Nat :=
  if Config.basesLegal Config.configuredBases.1 Config.configuredBases.2 then Config.configuredBases.2 else 16

/-- What the CPU collaborator does next inside one CPU step (R241): one single-byte access, or the step's end. -/
inductive CpuEvent where
  /-- `MemRead(addr, 1)` (R60), an opcode or operand fetch included (R75). -/
  | read (addr : Nat)
  /-- `MemWrite(addr, 1, d)` (R60). -/
  | write (addr : Nat) (d : Byte)
  /-- The instruction completes (R241 (c)). -/
  | done
  /-- The CPU step returns a fatal error (R241 (c), R245, R265). -/
  | fatal
  deriving DecidableEq, Repr, Inhabited

/-- The two agents of the block (R69, R276). -/
inductive Agent where
  | driveLoop
  | busMaster
  deriving DecidableEq, Repr, Inhabited

/-- OPEN `CPU_ACCESSES` (R6, D24; log entry 6): the CPU collaborator's event at the machine's `n`-th own turn. No body. -/
opaque Config.cpuEvent : Nat → CpuEvent

/-- The interleaving of the two agents, "any value" (R246, D15; log entry 7): which agent takes the machine's `n`-th own
turn. No body. -/
opaque Config.turn : Nat → Agent

end Sys2Proof
end

