-- ==== Sys2Proof/Syntax.lean ====
section
/-! DEFINITION. The abstract syntax: one constructor for each of the 76 rows of spec/opcode_table.json (R81, R94), its operands already typed: `k` the VIA instance, `d`, `e`, `b`, `p`, `s` bytes, `t` a TTL level, `sig` a signal. -/

namespace Sys2Proof

/-- One operation of the block, a row of the opcode table (R81, R94). -/
inductive Instr where
  -- CPU reads (R121 to R133)
  | rdPb (k : ViaId)
  | rdPa (k : ViaId)
  | rdDdrb (k : ViaId)
  | rdDdra (k : ViaId)
  | rdT1lo (k : ViaId)
  | rdT1hi (k : ViaId)
  | rdT1llo (k : ViaId)
  | rdT1lhi (k : ViaId)
  | rdU8 (k : ViaId)
  | rdU9 (k : ViaId)
  | rdUa (k : ViaId)
  | rdAcr (k : ViaId)
  | rdPcr (k : ViaId)
  | rdIfr (k : ViaId)
  | rdIe (k : ViaId)
  | rdUf (k : ViaId)
  -- CPU writes (R134 to R146)
  | wrPb (k : ViaId) (d : Byte)
  | wrPa (k : ViaId) (d : Byte)
  | wrDdrb (k : ViaId) (d : Byte)
  | wrDdra (k : ViaId) (d : Byte)
  | wrT1lo (k : ViaId) (d : Byte)
  | wrT1hi (k : ViaId) (d : Byte)
  | wrT1llo (k : ViaId) (d : Byte)
  | wrT1lhi (k : ViaId) (d : Byte)
  | wrU8 (k : ViaId) (d : Byte)
  | wrU9 (k : ViaId) (d : Byte)
  | wrUa (k : ViaId) (d : Byte)
  | wrAcr (k : ViaId) (d : Byte)
  | wrPcr (k : ViaId) (d : Byte)
  | wrIfr (k : ViaId) (d : Byte)
  | wrIe (k : ViaId) (d : Byte)
  | wrUf (k : ViaId) (d : Byte)
  -- side-effect-free reads (R147)
  | peekPb (k : ViaId)
  | peekPa (k : ViaId)
  | peekDdrb (k : ViaId)
  | peekDdra (k : ViaId)
  | peekT1lo (k : ViaId)
  | peekT1hi (k : ViaId)
  | peekT1llo (k : ViaId)
  | peekT1lhi (k : ViaId)
  | peekU8 (k : ViaId)
  | peekU9 (k : ViaId)
  | peekUa (k : ViaId)
  | peekAcr (k : ViaId)
  | peekPcr (k : ViaId)
  | peekIfr (k : ViaId)
  | peekIe (k : ViaId)
  | peekUf (k : ViaId)
  -- clock, control lines, GPIO side, interrupt query, reset (R160 to R172, R290)
  | tick (k : ViaId)
  | ctrlinCa2 (k : ViaId) (t : Bool)
  | ctrlinCa1 (k : ViaId) (t : Bool)
  | ctrlinCb2 (k : ViaId) (t : Bool)
  | ctrlinCb1 (k : ViaId) (t : Bool)
  | ginB (k : ViaId) (e : Byte)
  | ginA (k : ViaId) (e : Byte)
  | goutB (k : ViaId)
  | goutA (k : ViaId)
  | ctrloutCa2 (k : ViaId)
  | ctrloutCb2 (k : ViaId)
  | chkirq (k : ViaId)
  | irqline
  | reset (k : ViaId)
  -- the cable and the host connector (R105, R213 to R215)
  | sync
  | hsetDav (sig : Signal)
  | hsetEoi (sig : Signal)
  | hsetNdac (sig : Signal)
  | hsetNrfd (sig : Signal)
  | hsetSrq (sig : Signal)
  | hsetAtn (sig : Signal)
  | hsetRen (sig : Signal)
  | hsetIfc (sig : Signal)
  | hdio (b : Byte)
  | hreset
  -- the bus-master sequences (R219, R224, R226)
  | cmd (p s : Byte)
  | readbyte
  | input (p s : Byte)
  deriving DecidableEq, Repr

end Sys2Proof
end

