-- ==== Sys2Proof/Decode.lean ====
section
/-! DEFINITION. The decoder of transaction words (R80 to R88), total and rejecting by name, and after it the encoder written from the same tables. -/

namespace Sys2Proof

/-- Why a list of words "spells no operation" (R87). -/
inductive DecodeError where
  /-- No word at all. -/
  | noWord
  /-- `K` = 0xF. -/
  | reservedKind (w : Word)
  /-- A kind that takes no data byte with `D` ≠ 0. -/
  | dataNotZero (w : Word)
  /-- `S` names no line, port, query or host field of its kind, or is not 0 where it must be. -/
  | reservedSelector (w : Word)
  /-- `D` is no TTL level (`CTRLIN`) or no signal (`HSET`). -/
  | reservedData (w : Word)
  /-- The first word of `CMD` or `INPUT` with no second word (R83). -/
  | missingSecondWord (w : Word)
  /-- A second word whose bits 15:8 are not 0x00. -/
  | reservedSecondWord (w : Word)
  deriving DecidableEq, Repr

/-- Field `K`, bits 15:12 (R80). -/
def kindOf (w : Word) : Nat := (w.extractLsb' 12 4).toNat

/-- Field `S`, bits 11:8 (R80). -/
def selectorOf (w : Word) : Nat := (w.extractLsb' 8 4).toNat

/-- Field `D`, bits 7:0 (R80). -/
def dataOf (w : Word) : Byte := w.extractLsb' 0 8

/-- How many words the transaction beginning with `w` has, from `K` alone (R83). -/
def wordCount (w : Word) : Nat :=
  match kindOf w with
  | 0xC => 2
  | 0xE => 2
  | _ => 1

/-- The register of an offset 0x0 to 0xF (R82); 15 and above give `UF`, and no caller passes more than 15. -/
def regOf : Nat → Reg
  | 0x0 => .pb
  | 0x1 => .pa
  | 0x2 => .ddrb
  | 0x3 => .ddra
  | 0x4 => .t1lo
  | 0x5 => .t1hi
  | 0x6 => .t1llo
  | 0x7 => .t1lhi
  | 0x8 => .u8
  | 0x9 => .u9
  | 0xA => .ua
  | 0xB => .acr
  | 0xC => .pcr
  | 0xD => .ifr
  | 0xE => .ie
  | _ => .uf

/-- `RD <reg>` (R81, kind 0x0). -/
def rdInstr (k : ViaId) : Reg → Instr
  | .pb => .rdPb k
  | .pa => .rdPa k
  | .ddrb => .rdDdrb k
  | .ddra => .rdDdra k
  | .t1lo => .rdT1lo k
  | .t1hi => .rdT1hi k
  | .t1llo => .rdT1llo k
  | .t1lhi => .rdT1lhi k
  | .u8 => .rdU8 k
  | .u9 => .rdU9 k
  | .ua => .rdUa k
  | .acr => .rdAcr k
  | .pcr => .rdPcr k
  | .ifr => .rdIfr k
  | .ie => .rdIe k
  | .uf => .rdUf k

/-- `WR <reg>, #d` (R81, kind 0x1). -/
def wrInstr (k : ViaId) (d : Byte) : Reg → Instr
  | .pb => .wrPb k d
  | .pa => .wrPa k d
  | .ddrb => .wrDdrb k d
  | .ddra => .wrDdra k d
  | .t1lo => .wrT1lo k d
  | .t1hi => .wrT1hi k d
  | .t1llo => .wrT1llo k d
  | .t1lhi => .wrT1lhi k d
  | .u8 => .wrU8 k d
  | .u9 => .wrU9 k d
  | .ua => .wrUa k d
  | .acr => .wrAcr k d
  | .pcr => .wrPcr k d
  | .ifr => .wrIfr k d
  | .ie => .wrIe k d
  | .uf => .wrUf k d

/-- `PEEK <reg>` (R81, kind 0x2). -/
def peekInstr (k : ViaId) : Reg → Instr
  | .pb => .peekPb k
  | .pa => .peekPa k
  | .ddrb => .peekDdrb k
  | .ddra => .peekDdra k
  | .t1lo => .peekT1lo k
  | .t1hi => .peekT1hi k
  | .t1llo => .peekT1llo k
  | .t1lhi => .peekT1lhi k
  | .u8 => .peekU8 k
  | .u9 => .peekU9 k
  | .ua => .peekUa k
  | .acr => .peekAcr k
  | .pcr => .peekPcr k
  | .ifr => .peekIfr k
  | .ie => .peekIe k
  | .uf => .peekUf k

/-- `CTRLIN <line>, t`: line codes 0 CA2, 1 CA1, 3 CB2, 4 CB1 (R84, kind 0x4). -/
def ctrlinInstr (k : ViaId) (t : Bool) : Nat → Option Instr
  | 0 => some (.ctrlinCa2 k t)
  | 1 => some (.ctrlinCa1 k t)
  | 3 => some (.ctrlinCb2 k t)
  | 4 => some (.ctrlinCb1 k t)
  | _ => none

/-- `HSET <line>, sig`: host line codes 0 to 7 (R86, kind 0xB). -/
def hsetInstr (sig : Signal) : Nat → Option Instr
  | 0 => some (.hsetDav sig)
  | 1 => some (.hsetEoi sig)
  | 2 => some (.hsetNdac sig)
  | 3 => some (.hsetNrfd sig)
  | 4 => some (.hsetSrq sig)
  | 5 => some (.hsetAtn sig)
  | 6 => some (.hsetRen sig)
  | 7 => some (.hsetIfc sig)
  | _ => none

/-- The TTL level of a `CTRLIN` data byte: 0x00 `false`, 0x01 `true` (R84). -/
def levelOf (d : Byte) : Option Bool :=
  match d.toNat with
  | 0 => some false
  | 1 => some true
  | _ => none

/-- The signal of an `HSET` data byte: 0x00 ASSERTED, 0x01 NEGATED, 0x02 FLOATING (R86). -/
def signalOf (d : Byte) : Option Signal :=
  match d.toNat with
  | 0 => some .asserted
  | 1 => some .negated
  | 2 => some .floating
  | _ => none

/-- An operation that takes no operand: `S` = 0 and `D` = 0x00 (R82). -/
def decodePlain (w : Word) (i : Instr) : Except DecodeError Instr :=
  if selectorOf w ≠ 0 then .error (.reservedSelector w)
  else if dataOf w ≠ 0x00#8 then .error (.dataNotZero w)
  else .ok i

/-- An operation whose selector has been read to `i` and that takes no data byte: `D` = 0x00 (R80). -/
def decodeNoData (w : Word) (i : Option Instr) : Except DecodeError Instr :=
  match i with
  | none => .error (.reservedSelector w)
  | some i => if dataOf w ≠ 0x00#8 then .error (.dataNotZero w) else .ok i

/-- Kind 0x4, `CTRLIN` (R84). -/
def decodeCtrlin (k : ViaId) (w : Word) : Except DecodeError Instr :=
  match levelOf (dataOf w) with
  | none => .error (.reservedData w)
  | some t =>
    match ctrlinInstr k t (selectorOf w) with
    | none => .error (.reservedSelector w)
    | some i => .ok i

/-- Kind 0x5, `GIN`: port codes 0 = Port B, 1 = Port A (R85). -/
def decodeGin (k : ViaId) (w : Word) : Except DecodeError Instr :=
  match selectorOf w with
  | 0 => .ok (.ginB k (dataOf w))
  | 1 => .ok (.ginA k (dataOf w))
  | _ => .error (.reservedSelector w)

/-- Kind 0x6, `GOUT`: port codes as `GIN` (R85). -/
def goutInstr (k : ViaId) : Nat → Option Instr
  | 0 => some (.goutB k)
  | 1 => some (.goutA k)
  | _ => none

/-- Kind 0x7, `CTRLOUT`: only 0 = CA2 and 3 = CB2 are legal (R84). -/
def ctrloutInstr (k : ViaId) : Nat → Option Instr
  | 0 => some (.ctrloutCa2 k)
  | 3 => some (.ctrloutCb2 k)
  | _ => none

/-- Kind 0x8: `S` = 0 is `CHKIRQ`, `S` = 1 is `IRQLINE` (R81). -/
def irqInstr (k : ViaId) : Nat → Option Instr
  | 0 => some (.chkirq k)
  | 1 => some .irqline
  | _ => none

/-- Kind 0xB: `HSET` for `S` ≤ 7, `HDIO` for 8, `HRESET` for 9 (R86). -/
def decodeHost (w : Word) : Except DecodeError Instr :=
  match selectorOf w with
  | 8 => .ok (.hdio (dataOf w))
  | 9 => if dataOf w ≠ 0x00#8 then .error (.dataNotZero w) else .ok .hreset
  | n =>
    if 10 ≤ n then .error (.reservedSelector w)
    else
      match signalOf (dataOf w) with
      | none => .error (.reservedData w)
      | some sig =>
        match hsetInstr sig n with
        | none => .error (.reservedSelector w)
        | some i => .ok i

/-- A one-word transaction (R81): every kind but 0xC and 0xE, which `decode` takes first. -/
def decodeOne (k : ViaId) (w : Word) : Except DecodeError Instr :=
  match kindOf w with
  | 0x0 => decodeNoData w (some (rdInstr k (regOf (selectorOf w))))
  | 0x1 => .ok (wrInstr k (dataOf w) (regOf (selectorOf w)))
  | 0x2 => decodeNoData w (some (peekInstr k (regOf (selectorOf w))))
  | 0x3 => decodePlain w (.tick k)
  | 0x4 => decodeCtrlin k w
  | 0x5 => decodeGin k w
  | 0x6 => decodeNoData w (goutInstr k (selectorOf w))
  | 0x7 => decodeNoData w (ctrloutInstr k (selectorOf w))
  | 0x8 => decodeNoData w (irqInstr k (selectorOf w))
  | 0x9 => decodePlain w (.reset k)
  | 0xA => decodePlain w .sync
  | 0xB => decodeHost w
  | 0xD => decodePlain w .readbyte
  | _ => .error (.reservedKind w)

/-- The two-word forms `CMD` and `INPUT` (R83): `S` = 0, `D` the primary byte; the second word holds 0x00 and the
secondary byte. -/
def decodeTwo (make : Byte → Byte → Instr) (w : Word) :
    List Word → Except DecodeError (Instr × List Word)
  | [] => if selectorOf w ≠ 0 then .error (.reservedSelector w) else .error (.missingSecondWord w)
  | w2 :: rest =>
    if selectorOf w ≠ 0 then .error (.reservedSelector w)
    else if w2.extractLsb' 8 8 ≠ 0x00#8 then .error (.reservedSecondWord w2)
    else .ok (make (dataOf w) (dataOf w2), rest)

/-- The decoder: the instruction the first words spell at instance `k`, and the words after it (R80 to R87). -/
def decode (k : ViaId) : List Word → Except DecodeError (Instr × List Word)
  | [] => .error .noWord
  | w :: rest =>
    match kindOf w with
    | 0xC => decodeTwo .cmd w rest
    | 0xE => decodeTwo .input w rest
    | _ =>
      match decodeOne k w with
      | .error e => .error e
      | .ok i => .ok (i, rest)

/-- The words of an opcode-table row's number: the first word is bits 15:0, the second bits 31:16, and the second is
there only where the first word's kind takes one (R83). -/
def tableWords (nbits w : Nat) : List Word :=
  let v := w % 2 ^ nbits
  let w1 : Word := BitVec.ofNat 16 v
  if wordCount w1 = 2 then [w1, BitVec.ofNat 16 (v / 65536)] else [w1]

/-- The instruction the decoder reads from a table row's number, at the default instance `@0` (R89; DEDUCED, log
entry 3). -/
def decodeTableWord (nbits w : Nat) : Option Instr :=
  match decode .via0 (tableWords nbits w) with
  | .ok (i, _) => some i
  | .error _ => none

/-! The encoder, from the tables of R81 to R86. -/

/-- The instance a transaction carries beside its word (R80); `@0` for the kinds that take none. -/
def Instr.instanceOf : Instr → ViaId
  | .rdPb k | .rdPa k | .rdDdrb k | .rdDdra k | .rdT1lo k | .rdT1hi k | .rdT1llo k | .rdT1lhi k => k
  | .rdU8 k | .rdU9 k | .rdUa k | .rdAcr k | .rdPcr k | .rdIfr k | .rdIe k | .rdUf k => k
  | .wrPb k _ | .wrPa k _ | .wrDdrb k _ | .wrDdra k _ | .wrT1lo k _ | .wrT1hi k _ | .wrT1llo k _ | .wrT1lhi k _ => k
  | .wrU8 k _ | .wrU9 k _ | .wrUa k _ | .wrAcr k _ | .wrPcr k _ | .wrIfr k _ | .wrIe k _ | .wrUf k _ => k
  | .peekPb k | .peekPa k | .peekDdrb k | .peekDdra k | .peekT1lo k | .peekT1hi k | .peekT1llo k | .peekT1lhi k => k
  | .peekU8 k | .peekU9 k | .peekUa k | .peekAcr k | .peekPcr k | .peekIfr k | .peekIe k | .peekUf k => k
  | .tick k | .goutB k | .goutA k | .ctrloutCa2 k | .ctrloutCb2 k | .chkirq k | .reset k => k
  | .ctrlinCa2 k _ | .ctrlinCa1 k _ | .ctrlinCb2 k _ | .ctrlinCb1 k _ | .ginB k _ | .ginA k _ => k
  | .irqline | .sync | .hsetDav _ | .hsetEoi _ | .hsetNdac _ | .hsetNrfd _ | .hsetSrq _ | .hsetAtn _ => .via0
  | .hsetRen _ | .hsetIfc _ | .hdio _ | .hreset | .cmd _ _ | .readbyte | .input _ _ => .via0

/-- A transaction word from its three fields (R80). -/
def transactionWord (kind selector : BitVec 4) (data : Byte) : Word := kind ++ selector ++ data

/-- The data byte of a TTL level (R84). -/
def levelCode (t : Bool) : Byte := if t then 0x01#8 else 0x00#8

/-- The data byte of a signal (R86). -/
def signalCode : Signal → Byte
  | .asserted => 0x00#8
  | .negated => 0x01#8
  | .floating => 0x02#8

/-- The words of an instruction, from the field values of R81 to R86. -/
def encode : Instr → List Word
  | .rdPb _ => [transactionWord 0x0#4 0x0#4 0x00#8]
  | .rdPa _ => [transactionWord 0x0#4 0x1#4 0x00#8]
  | .rdDdrb _ => [transactionWord 0x0#4 0x2#4 0x00#8]
  | .rdDdra _ => [transactionWord 0x0#4 0x3#4 0x00#8]
  | .rdT1lo _ => [transactionWord 0x0#4 0x4#4 0x00#8]
  | .rdT1hi _ => [transactionWord 0x0#4 0x5#4 0x00#8]
  | .rdT1llo _ => [transactionWord 0x0#4 0x6#4 0x00#8]
  | .rdT1lhi _ => [transactionWord 0x0#4 0x7#4 0x00#8]
  | .rdU8 _ => [transactionWord 0x0#4 0x8#4 0x00#8]
  | .rdU9 _ => [transactionWord 0x0#4 0x9#4 0x00#8]
  | .rdUa _ => [transactionWord 0x0#4 0xA#4 0x00#8]
  | .rdAcr _ => [transactionWord 0x0#4 0xB#4 0x00#8]
  | .rdPcr _ => [transactionWord 0x0#4 0xC#4 0x00#8]
  | .rdIfr _ => [transactionWord 0x0#4 0xD#4 0x00#8]
  | .rdIe _ => [transactionWord 0x0#4 0xE#4 0x00#8]
  | .rdUf _ => [transactionWord 0x0#4 0xF#4 0x00#8]
  | .wrPb _ d => [transactionWord 0x1#4 0x0#4 d]
  | .wrPa _ d => [transactionWord 0x1#4 0x1#4 d]
  | .wrDdrb _ d => [transactionWord 0x1#4 0x2#4 d]
  | .wrDdra _ d => [transactionWord 0x1#4 0x3#4 d]
  | .wrT1lo _ d => [transactionWord 0x1#4 0x4#4 d]
  | .wrT1hi _ d => [transactionWord 0x1#4 0x5#4 d]
  | .wrT1llo _ d => [transactionWord 0x1#4 0x6#4 d]
  | .wrT1lhi _ d => [transactionWord 0x1#4 0x7#4 d]
  | .wrU8 _ d => [transactionWord 0x1#4 0x8#4 d]
  | .wrU9 _ d => [transactionWord 0x1#4 0x9#4 d]
  | .wrUa _ d => [transactionWord 0x1#4 0xA#4 d]
  | .wrAcr _ d => [transactionWord 0x1#4 0xB#4 d]
  | .wrPcr _ d => [transactionWord 0x1#4 0xC#4 d]
  | .wrIfr _ d => [transactionWord 0x1#4 0xD#4 d]
  | .wrIe _ d => [transactionWord 0x1#4 0xE#4 d]
  | .wrUf _ d => [transactionWord 0x1#4 0xF#4 d]
  | .peekPb _ => [transactionWord 0x2#4 0x0#4 0x00#8]
  | .peekPa _ => [transactionWord 0x2#4 0x1#4 0x00#8]
  | .peekDdrb _ => [transactionWord 0x2#4 0x2#4 0x00#8]
  | .peekDdra _ => [transactionWord 0x2#4 0x3#4 0x00#8]
  | .peekT1lo _ => [transactionWord 0x2#4 0x4#4 0x00#8]
  | .peekT1hi _ => [transactionWord 0x2#4 0x5#4 0x00#8]
  | .peekT1llo _ => [transactionWord 0x2#4 0x6#4 0x00#8]
  | .peekT1lhi _ => [transactionWord 0x2#4 0x7#4 0x00#8]
  | .peekU8 _ => [transactionWord 0x2#4 0x8#4 0x00#8]
  | .peekU9 _ => [transactionWord 0x2#4 0x9#4 0x00#8]
  | .peekUa _ => [transactionWord 0x2#4 0xA#4 0x00#8]
  | .peekAcr _ => [transactionWord 0x2#4 0xB#4 0x00#8]
  | .peekPcr _ => [transactionWord 0x2#4 0xC#4 0x00#8]
  | .peekIfr _ => [transactionWord 0x2#4 0xD#4 0x00#8]
  | .peekIe _ => [transactionWord 0x2#4 0xE#4 0x00#8]
  | .peekUf _ => [transactionWord 0x2#4 0xF#4 0x00#8]
  | .tick _ => [transactionWord 0x3#4 0x0#4 0x00#8]
  | .ctrlinCa2 _ t => [transactionWord 0x4#4 0x0#4 (levelCode t)]
  | .ctrlinCa1 _ t => [transactionWord 0x4#4 0x1#4 (levelCode t)]
  | .ctrlinCb2 _ t => [transactionWord 0x4#4 0x3#4 (levelCode t)]
  | .ctrlinCb1 _ t => [transactionWord 0x4#4 0x4#4 (levelCode t)]
  | .ginB _ e => [transactionWord 0x5#4 0x0#4 e]
  | .ginA _ e => [transactionWord 0x5#4 0x1#4 e]
  | .goutB _ => [transactionWord 0x6#4 0x0#4 0x00#8]
  | .goutA _ => [transactionWord 0x6#4 0x1#4 0x00#8]
  | .ctrloutCa2 _ => [transactionWord 0x7#4 0x0#4 0x00#8]
  | .ctrloutCb2 _ => [transactionWord 0x7#4 0x3#4 0x00#8]
  | .chkirq _ => [transactionWord 0x8#4 0x0#4 0x00#8]
  | .irqline => [transactionWord 0x8#4 0x1#4 0x00#8]
  | .reset _ => [transactionWord 0x9#4 0x0#4 0x00#8]
  | .sync => [transactionWord 0xA#4 0x0#4 0x00#8]
  | .hsetDav sig => [transactionWord 0xB#4 0x0#4 (signalCode sig)]
  | .hsetEoi sig => [transactionWord 0xB#4 0x1#4 (signalCode sig)]
  | .hsetNdac sig => [transactionWord 0xB#4 0x2#4 (signalCode sig)]
  | .hsetNrfd sig => [transactionWord 0xB#4 0x3#4 (signalCode sig)]
  | .hsetSrq sig => [transactionWord 0xB#4 0x4#4 (signalCode sig)]
  | .hsetAtn sig => [transactionWord 0xB#4 0x5#4 (signalCode sig)]
  | .hsetRen sig => [transactionWord 0xB#4 0x6#4 (signalCode sig)]
  | .hsetIfc sig => [transactionWord 0xB#4 0x7#4 (signalCode sig)]
  | .hdio b => [transactionWord 0xB#4 0x8#4 b]
  | .hreset => [transactionWord 0xB#4 0x9#4 0x00#8]
  | .cmd p s => [transactionWord 0xC#4 0x0#4 p, transactionWord 0x0#4 0x0#4 s]
  | .readbyte => [transactionWord 0xD#4 0x0#4 0x00#8]
  | .input p s => [transactionWord 0xE#4 0x0#4 p, transactionWord 0x0#4 0x0#4 s]

end Sys2Proof
end

