-- ==== Sys2Proof/Machine/State.lean ====
section
/-! DEFINITION. The state of the block as plain data (R20 to R47), the reasons a step can stop, and the state after reset. -/

namespace Sys2Proof.Machine

/-- One VIA instance (R22 to R33). IFR bit 7 is never stored: it is computed at every read (R30, R32). -/
structure Via where
  /-- `v.PB`, Port B register (R22). -/
  pb : Byte
  /-- `v.PA`, Port A register (R23). -/
  pa : Byte
  /-- `v.DDRB`, Port B direction: bit 1 makes the port bit an output (R24). -/
  ddrb : Byte
  /-- `v.DDRA`, Port A direction (R24). -/
  ddra : Byte
  /-- `v.T1LL`, Timer 1 low latch (R26). -/
  t1ll : Byte
  /-- `v.T1LH`, Timer 1 high latch (R26). -/
  t1lh : Byte
  /-- `v.T1C`, the authoritative 16-bit Timer 1 counter (R27). -/
  t1c : Word
  /-- `v.ACR` (R28). -/
  acr : Byte
  /-- `v.PCR` (R29). -/
  pcr : Byte
  /-- `v.IFR[6:0]`, the stored flags (R30). -/
  ifr : BitVec 7
  /-- `v.IE`, the seven stored enables (R31). -/
  ie : BitVec 7
  /-- `v.CA1`, the last TTL level delivered to CA1 (R33). -/
  ca1 : Bool
  /-- `v.CA2` (R33). -/
  ca2 : Bool
  /-- `v.CB1` (R33). -/
  cb1 : Bool
  /-- `v.CB2` (R33). -/
  cb2 : Bool
  deriving DecidableEq, Repr

/-- `BusState` (R36): eight signals and a DIO byte, in bus form on the cable and natural in the host's latches (R37). -/
structure BusState where
  dav : Signal
  eoi : Signal
  ndac : Signal
  nrfd : Signal
  srq : Signal
  atn : Signal
  ren : Signal
  ifc : Signal
  dio : Byte
  deriving DecidableEq, Repr

/-- `host`, the host connector's two latches (R41), every DIO byte in them natural (R210). -/
structure HostConnector where
  /-- `host.out`, what this end drives onto the bus. -/
  out : BusState
  /-- `host.in`, latched from the last Sync. -/
  inp : BusState
  deriving DecidableEq, Repr

/-- `bm.seq`, the sequence running (R43). -/
inductive Sequence where
  | idle
  | cmd
  | readByte
  | input
  deriving DecidableEq, Repr

/-- `bm.round`, which command byte steps 5 to 10 are sending (R43). -/
inductive Round where
  | primary
  | secondary
  deriving DecidableEq, Repr

/-- `bm.phase`, the part of an input sequence running (R43). -/
inductive InputPhase where
  | talk
  | read
  | untalk
  deriving DecidableEq, Repr

/-- The tag of a poll (R216, R219 steps 3, 5, 7, 8, 10; R224 steps 3, 8). -/
inductive PollTag where
  | ack
  | ready
  | busy
  | accepted
  | idle
  | dav
  | davRelease
  deriving DecidableEq, Repr

/-- `bm.result` (R43): nothing yet, success with what the sequence hands back (R219, R224, R226), or the timeout with its
sequence, tag and the incoming latch at the failing sample (R218, R262). -/
inductive SeqResult where
  | none
  | ok
  | okByte (b : Byte)
  | okBytes (bs : List Byte)
  | timeout (seq : Sequence) (tag : PollTag) (observed : BusState)
  deriving DecidableEq, Repr

/-- `bm`, the bus master's control state (R42, R43). -/
structure BusMaster where
  seq : Sequence
  /-- The number of the step to be taken next, as R219 and R224 number them; 0 while idle (log entry 8). -/
  step : Nat
  /-- Failed samples of the current poll. -/
  retries : Nat
  /-- `bm.prim`, the primary byte of the running command. -/
  prim : Byte
  /-- `bm.sec`, its secondary byte, `NO_SECONDARY` when none. -/
  sec : Byte
  round : Round
  phase : InputPhase
  /-- `bm.byte`, the byte `readByte` latched. -/
  byte : Byte
  /-- `bm.bytes`, the natural bytes the input sequence has read. -/
  bytes : List Byte
  result : SeqResult
  /-- `bm.synced`: has a Sync run since the last write to `host.out` (R42)? -/
  synced : Bool
  deriving DecidableEq, Repr

/-- `loop`, the drive loop's phase (R45). -/
inductive LoopPhase where
  | cpuStep
  | tick
  | sync
  | irqCheck
  | halted
  deriving DecidableEq, Repr

/-- What a transaction that returns a value returned: the model's own port (log entry 2). -/
inductive Returned where
  | nothing
  | byte (b : Byte)
  | level (t : Bool)
  deriving DecidableEq, Repr

/-- One turn the outside world gives the machine: the model's own (log entries 1 and 7). -/
inductive Input where
  /-- Transactions issued at instance `k` by a CPU access, a harness or the host (R80, R44, R246): their words in order. -/
  | transactions (k : ViaId) (ws : List Word)
  /-- The drive loop takes its next atomic step; while it is at `CpuStep` the CPU collaborator's event is `e` (R240, R241). -/
  | drive (e : CpuEvent)
  /-- The bus master takes its next step, if one is enabled (R228). -/
  | host
  /-- The monitor reads one line from standard input (R91). -/
  | line (cs : List Char)
  deriving DecidableEq, Repr

/-- What the monitor answered to the last line it read (R91, R247, R263): the model's own port (log entry 2). -/
inductive Console where
  /-- No line read yet. -/
  | quiet
  /-- The line issued a transaction. -/
  | issued
  /-- `dump` printed the host-side connector state. -/
  | dumped
  /-- `peek` or `poke` reached RAM, which is outside the block. -/
  | ram
  /-- An input format error reported inline (E2). -/
  | formatError
  /-- `?`, for a line that names no command. -/
  | unknown
  deriving DecidableEq, Repr

/-- The block's edge with the outside world. None of it is state the spec gives the block (log entries 1, 2 and 7). -/
structure Ports where
  /-- The turns the outside world has queued, the next one first. -/
  inputs : List Input
  /-- How many turns the machine has taken on its own, with no input queued. -/
  turns : Nat
  /-- What the last value-returning transaction returned. -/
  ret : Returned
  /-- Did the last IrqCheck invoke the CPU interrupt (R244)? -/
  cpuInterrupt : Bool
  /-- The monitor's last answer. -/
  console : Console
  deriving DecidableEq, Repr

/-- `S = { via[0..1], host, bm, loop }` (R21), and the model's own ports. -/
structure State where
  via0 : Via
  via1 : Via
  host : HostConnector
  bm : BusMaster
  loop : LoopPhase
  io : Ports
  deriving DecidableEq, Repr

/-- Why the machine stops for good. The block itself raises no exception and no fault (R260). -/
inductive Fault where
  /-- Raised by the monitor's `exit` line: the process ends with code 0 and no state follows (R91, R247). Safe. -/
  | processExit
  deriving DecidableEq, Repr

/-- Why a transaction has no successor state: the spec's own refusals (R87, R164, R228; 93 rows 1, 10 and 33). -/
inductive Refusal where
  /-- Raised by `exec` alone, for an instruction without a meaning; no arm raises it. Safe. -/
  | notModelled (mnemonic : String)
  /-- Raised by `step` for words that spell no operation (R87, D22). Safe. -/
  | undecodable (e : DecodeError)
  /-- Raised by `CTRLOUT` of a line in input mode, "Otherwise undefined / unused" (R164, D23). Safe. -/
  | controlOutputUndefined (line : OutLine)
  /-- Raised by `CMD`, `READBYTE` and `INPUT` while a sequence runs (R228, D33). Safe. -/
  | sequenceRunning
  deriving DecidableEq, Repr

/-- The VIA's reset values, every register, counter and control-line state zero (R47, R290). -/
def Via.reset : Via :=
  { pb := 0, pa := 0, ddrb := 0, ddra := 0, t1ll := 0, t1lh := 0, t1c := 0, acr := 0, pcr := 0,
    ifr := 0, ie := 0, ca1 := false, ca2 := false, cb1 := false, cb2 := false }

/-- The host's outgoing record at reset, every line FLOATING and DIO natural 0xFF (R41, R215). -/
def BusState.released : BusState :=
  { dav := .floating, eoi := .floating, ndac := .floating, nrfd := .floating, srq := .floating,
    atn := .floating, ren := .floating, ifc := .floating, dio := Config.dioReleased }

/-- The host's incoming record at reset, every line NEGATED and DIO natural 0xFF (R41). -/
def BusState.quiet : BusState :=
  { dav := .negated, eoi := .negated, ndac := .negated, nrfd := .negated, srq := .negated,
    atn := .negated, ren := .negated, ifc := .negated, dio := Config.dioReleased }

/-- `host` at reset (R41). -/
def HostConnector.reset : HostConnector := { out := .released, inp := .quiet }

/-- `bm` at reset (R42, R43, R47). -/
def BusMaster.reset : BusMaster :=
  { seq := .idle, step := 0, retries := 0, prim := 0x00#8, sec := 0xFF#8, round := .primary,
    phase := .talk, byte := 0x00#8, bytes := [], result := .none, synced := true }

/-- The ports at the start: no input queued, nothing returned, offered or answered (DESIGN CHOICE, log entries 1 and 2). -/
def Ports.reset : Ports :=
  { inputs := [], turns := 0, ret := .nothing, cpuInterrupt := false, console := .quiet }

/-- The machine at process start: every field of the block at its value of R47 (R291 (a), R248). -/
def State.reset : State :=
  { via0 := .reset, via1 := .reset, host := .reset, bm := .reset, loop := .cpuStep, io := .reset }

end Sys2Proof.Machine
end

