-- ==== Sys2Proof/Machine/Operands.lean ====
section
/-! DEFINITION. Operand forms: bits of registers, the port and line selectors, the PCR fields, and the counter's byte halves. -/

namespace Sys2Proof.Machine

/-- Bit `n` of a value, bit 0 the least significant (R7). -/
def bit {w : Nat} (v : BitVec w) (n : Nat) : Bool := v.getLsbD n

/-- `v[n] <- b`. -/
def setBit {w : Nat} (v : BitVec w) (n : Nat) (b : Bool) : BitVec w :=
  if b then v ||| BitVec.twoPow w n else v &&& ~~~BitVec.twoPow w n

/-- `a:b`, the 16-bit value `(a << 8) | b` (R8). -/
def pair (hi lo : Byte) : Word := hi ++ lo

/-- Bits 7:0 of the counter (R62). -/
def lowByte (c : Word) : Byte := c.extractLsb' 0 8

/-- Bits 15:8 of the counter (R62). -/
def highByte (c : Word) : Byte := c.extractLsb' 8 8

/-- The port register (R22, R23). -/
def Via.port (v : Via) : Port → Byte
  | .a => v.pa
  | .b => v.pb

/-- The direction register of a port (R24). -/
def Via.direction (v : Via) : Port → Byte
  | .a => v.ddra
  | .b => v.ddrb

/-- Write the port register whole. -/
def Via.setPort (v : Via) (x : Byte) : Port → Via
  | .a => { v with pa := x }
  | .b => { v with pb := x }

/-- Write the direction register of a port. -/
def Via.setDirection (v : Via) (x : Byte) : Port → Via
  | .a => { v with ddra := x }
  | .b => { v with ddrb := x }

/-- `PortOut = Port & Direction`, computed on demand (R25). -/
def Via.portOut (v : Via) (p : Port) : Byte := v.port p &&& v.direction p

/-- The stored level of a control line (R33). -/
def Via.level (v : Via) : CtrlLine → Bool
  | .ca1 => v.ca1
  | .ca2 => v.ca2
  | .cb1 => v.cb1
  | .cb2 => v.cb2

/-- Store the level of a control line. -/
def Via.setLevel (v : Via) (t : Bool) : CtrlLine → Via
  | .ca1 => { v with ca1 := t }
  | .ca2 => { v with ca2 := t }
  | .cb1 => { v with cb1 := t }
  | .cb2 => { v with cb2 := t }

/-- The control line an output line is. -/
def outLine : OutLine → CtrlLine
  | .ca2 => .ca2
  | .cb2 => .cb2

/-- `inputMode(v, line)`: CA1 and CB1 have no output mode (R120, R29). -/
def Via.inputMode (v : Via) : CtrlLine → Bool
  | .ca2 => !bit v.pcr Config.pcrCa2Out
  | .cb2 => !bit v.pcr Config.pcrCb2Out
  | .ca1 | .cb1 => true

/-- `polBit(v, line)` (R120, R29). -/
def Via.polarity (v : Via) : CtrlLine → Bool
  | .ca1 => bit v.pcr Config.pcrCa1Pol
  | .ca2 => bit v.pcr Config.pcrCa2Pol
  | .cb1 => bit v.pcr Config.pcrCb1Pol
  | .cb2 => bit v.pcr Config.pcrCb2Pol

/-- ACR bit 6, Timer 1 continuous mode (R28). -/
def Via.continuous (v : Via) : Bool := bit v.acr 6

/-- The Timer 1 latches as the value the counter loads, `T1LH : T1LL` (R62, R88). -/
def Via.latches (v : Via) : Word := pair v.t1lh v.t1ll

/-- A line of a bus state (R36). -/
def BusState.line (b : BusState) : BusLine → Signal
  | .dav => b.dav
  | .eoi => b.eoi
  | .ndac => b.ndac
  | .nrfd => b.nrfd
  | .srq => b.srq
  | .atn => b.atn
  | .ren => b.ren
  | .ifc => b.ifc

/-- Set a line of a bus state (R36). -/
def BusState.setLine (b : BusState) (sig : Signal) : BusLine → BusState
  | .dav => { b with dav := sig }
  | .eoi => { b with eoi := sig }
  | .ndac => { b with ndac := sig }
  | .nrfd => { b with nrfd := sig }
  | .srq => { b with srq := sig }
  | .atn => { b with atn := sig }
  | .ren => { b with ren := sig }
  | .ifc => { b with ifc := sig }

end Sys2Proof.Machine
end

