-- ==== Sys2Proof/Machine/Flags.lean ====
section
/-! DEFINITION. The interrupt flags: their positions, the port-access clears, the write-1-to-clear and set/clear protocols, and the computed IRQ (R30 to R32, R40, R120, R144, R145, R161). -/

namespace Sys2Proof.Machine

/-- `flagBit(line)` (R161, R30). -/
def flagBit : CtrlLine → Nat
  | .ca2 => 0
  | .ca1 => 1
  | .cb2 => 3
  | .cb1 => 4

/-- IFR bit 6, Timer 1 (R30). -/
def t1Flag : Nat := 6

/-- `v.IFR[n] <- 1`. -/
def Via.raise (v : Via) (n : Nat) : Via := { v with ifr := setBit v.ifr n true }

/-- `v.IFR[n] <- 0`. -/
def Via.lower (v : Via) (n : Nat) : Via := { v with ifr := setBit v.ifr n false }

/-- `clearA` and `clearB` (R120): a port access clears Cx1 always, and Cx2 only in input mode (conflict C2). -/
def Via.clearPortFlags (v : Via) : Port → Via
  | .a => if v.inputMode .ca2 then (v.lower (flagBit .ca1)).lower (flagBit .ca2) else v.lower (flagBit .ca1)
  | .b => if v.inputMode .cb2 then (v.lower (flagBit .cb1)).lower (flagBit .cb2) else v.lower (flagBit .cb1)

/-- `IRQ(v) = ((v.IFR[6:0] & v.IE[6:0]) != 0)` (R32). -/
def Via.irq (v : Via) : Bool := v.ifr &&& v.ie != 0#7

/-- What a read of IFR gives: the stored flags with bit 7 = `IRQ(v)` (R131). -/
def Via.ifrByte (v : Via) : Byte := BitVec.ofBool v.irq ++ v.ifr

/-- What a read of IE gives: the stored enables with bit 7 = 0 (R132, D6). -/
def Via.ieByte (v : Via) : Byte := 0#1 ++ v.ie

/-- A write of IFR: write-1-to-clear for CB1, CB2, CA1 and CA2 alone, mask 0x1B (R144, D7). -/
def clearFlags (ifr : BitVec 7) (d : Byte) : BitVec 7 := ifr &&& ~~~((d &&& 0x1B#8).extractLsb' 0 7)

/-- A write of IE: data bit 7 chooses to set or to clear the bits where `d` is 1 (R145, conflict C3). -/
def enableBits (ie : BitVec 7) (d : Byte) : BitVec 7 :=
  if bit d 7 then ie ||| d.extractLsb' 0 7 else ie &&& ~~~(d.extractLsb' 0 7)

/-- Does the transition match the polarity PCR selects: 0 the falling edge, 1 the rising one (R161)? -/
def Via.edgeMatches (v : Via) (line : CtrlLine) (old new : Bool) : Bool :=
  (old && !new && !v.polarity line) || (!old && new && v.polarity line)

/-- `IRQLINE(S) = IRQ(via[0]) or IRQ(via[1])` (R40). -/
def State.irqLine (s : State) : Bool := s.via0.irq || s.via1.irq

end Sys2Proof.Machine
end

