-- ==== Sys2Proof/Machine/Ops.lean ====
section
/-! DEFINITION. The named operations over the state: the VIA instances, the register file behind the CPU path (R60, R121 to R147), the host's outgoing latch, the return port, the interrupt delivery and the transaction queue. -/

namespace Sys2Proof.Machine

/-- A meaning's answer. -/
abbrev Out := Host.Outcome State Fault Refusal

/-- `via[k]`. -/
def State.via (s : State) : ViaId → Via
  | .via0 => s.via0
  | .via1 => s.via1

/-- Replace `via[k]`. -/
def State.setVia (s : State) (v : Via) : ViaId → State
  | .via0 => { s with via0 := v }
  | .via1 => { s with via1 := v }

/-- Hand a value back to whoever issued the transaction. -/
def State.returning (s : State) (r : Returned) : State := { s with io := { s.io with ret := r } }

/-- Queue the outside world's turns anew. -/
def State.withInputs (s : State) (is : List Input) : State := { s with io := { s.io with inputs := is } }

/-- Record the monitor's answer. -/
def State.answering (s : State) (c : Console) : State := { s with io := { s.io with console := c } }

/-- Write `host.out`; every such write clears `bm.synced` (R42). -/
def State.writeOut (s : State) (b : BusState) : State :=
  { s with host := { s.host with out := b }, bm := { s.bm with synced := false } }

/-- The value a register holds for a reader, with no side effect: `PEEK(i)` (R147), which the CPU reads return too. -/
def Via.peek (v : Via) : Reg → Byte
  | .pb => v.pb
  | .pa => v.pa
  | .ddrb => v.ddrb
  | .ddra => v.ddra
  | .t1lo => lowByte v.t1c
  | .t1hi => highByte v.t1c
  | .t1llo => v.t1ll
  | .t1lhi => v.t1lh
  | .acr => v.acr
  | .pcr => v.pcr
  | .ifr => v.ifrByte
  | .ie => v.ieByte
  | .u8 | .u9 | .ua | .uf => 0x00#8

/-- The side effect of a CPU read: offsets 0, 1 and 4 alone have one (R65, R121, R122, R125). -/
def Via.afterRead (v : Via) : Reg → Via
  | .pb => v.clearPortFlags .b
  | .pa => v.clearPortFlags .a
  | .t1lo => v.lower t1Flag
  | .ddrb | .ddra | .t1hi | .t1llo | .t1lhi | .acr | .pcr | .ifr | .ie => v
  | .u8 | .u9 | .ua | .uf => v

/-- A CPU write of a port: only the output-configured bits are replaced (R134, R135, conflict C13). -/
def Via.writePort (v : Via) (p : Port) (d : Byte) : Via :=
  (v.setPort ((v.port p &&& ~~~v.direction p) ||| (d &&& v.direction p)) p).clearPortFlags p

/-- A write of T1HI: the high latch, the counter load and the flag clear (R139). -/
def Via.loadTimer (v : Via) (d : Byte) : Via :=
  ({ v with t1lh := d, t1c := pair d v.t1ll }).lower t1Flag

/-- A CPU write of byte `d` to a register (R134 to R146). -/
def Via.write (v : Via) (d : Byte) : Reg → Via
  | .pb => v.writePort .b d
  | .pa => v.writePort .a d
  | .ddrb => { v with ddrb := d }
  | .ddra => { v with ddra := d }
  | .t1lo => { v with t1ll := d }
  | .t1hi => v.loadTimer d
  | .t1llo => { v with t1ll := d }
  | .t1lhi => ({ v with t1lh := d }).lower t1Flag
  | .acr => { v with acr := d }
  | .pcr => { v with pcr := d }
  | .ifr => { v with ifr := clearFlags v.ifr d }
  | .ie => { v with ie := enableBits v.ie d }
  | .u8 | .u9 | .ua | .uf => v

/-- `x[i]`, a CPU read of a register of `via[k]` with its side effects, one atomic step (R9, R67). -/
def State.cpuRead (s : State) (k : ViaId) (r : Reg) : State :=
  (s.setVia ((s.via k).afterRead r) k).returning (.byte ((s.via k).peek r))

/-- `x[i] <- d`, a CPU write of a register of `via[k]`, one atomic step (R9, R67). -/
def State.cpuWrite (s : State) (k : ViaId) (d : Byte) (r : Reg) : State :=
  s.setVia ((s.via k).write d r) k

/-- `Peek(i)` of `via[k]` (R147). -/
def State.peekReg (s : State) (k : ViaId) (r : Reg) : State :=
  s.returning (.byte ((s.via k).peek r))

/-- The address decode of the memory bus (R60): `base <= addr < base + 16` reaches `register_index = addr - base`. -/
def decodeAddress (base0 base1 addr : Nat) : Option (ViaId × Reg) :=
  if base0 ≤ addr ∧ addr < base0 + Config.nreg then some (.via0, regOf (addr - base0))
  else if base1 ≤ addr ∧ addr < base1 + Config.nreg then some (.via1, regOf (addr - base1))
  else none

/-- `MemRead(addr, 1)` as the block sees it: a CPU read inside a VIA window, nothing outside (R60, R75, R241 (b);
DEDUCED, log entry 21). -/
def State.memRead (s : State) (base0 base1 addr : Nat) : State :=
  match decodeAddress base0 base1 addr with
  | some (k, r) => s.cpuRead k r
  | none => s

/-- `MemWrite(addr, 1, d)` as the block sees it (R60, R241 (b)). -/
def State.memWrite (s : State) (base0 base1 addr : Nat) (d : Byte) : State :=
  match decodeAddress base0 base1 addr with
  | some (k, r) => s.cpuWrite k d r
  | none => s

/-- The one exception-like event of the block: IrqCheck offers the CPU interrupt while the aggregated line is true (R244,
R271). The block saves no state, switches no mode and supplies no vector; entry and return are the CPU's (R272). -/
def State.offerInterrupt (s : State) : State :=
  { s with io := { s.io with cpuInterrupt := s.irqLine } }

/-- Put the words of transactions still to be run back at the head of the queue. -/
def State.requeue (s : State) (k : ViaId) : List Word → State
  | [] => s
  | w :: ws => s.withInputs (.transactions k (w :: ws) :: s.io.inputs)

end Sys2Proof.Machine
end

