-- ==== Sys2Proof/Machine/Signals.lean ====
section
/-! DEFINITION. The signal algebra and the wired-OR merge (R100 to R104). -/

namespace Sys2Proof.Machine

/-- `to_ttl` (R100): FLOATING and NEGATED are both high. -/
def toTtl : Signal → Bool
  | .asserted => false
  | .negated => true
  | .floating => true

/-- `from_ttl` (R101): never FLOATING. -/
def fromTtl (t : Bool) : Signal := if t then .negated else .asserted

/-- `merge` (R102): ASSERTED wins, FLOATING never does, and the result is never FLOATING. -/
def mergeSignal (a b : Signal) : Signal :=
  match a, b with
  | .asserted, _ => .asserted
  | _, .asserted => .asserted
  | _, _ => .negated

/-- `mergeBus` (R103): line by line, and the OR of the data bytes in bus form. -/
def mergeBus (a b : BusState) : BusState :=
  { dav := mergeSignal a.dav b.dav
    eoi := mergeSignal a.eoi b.eoi
    ndac := mergeSignal a.ndac b.ndac
    nrfd := mergeSignal a.nrfd b.nrfd
    srq := mergeSignal a.srq b.srq
    atn := mergeSignal a.atn b.atn
    ren := mergeSignal a.ren b.ren
    ifc := mergeSignal a.ifc b.ifc
    dio := a.dio ||| b.dio }

end Sys2Proof.Machine
end

