-- ==== Sys2Proof/Machine/Connectors.lean ====
section
/-! DEFINITION. The control-line and GPIO operations of a VIA, the two connectors, and the cable's Sync (R105, R160 to R171, R190 to R200, R210 to R212). -/

namespace Sys2Proof.Machine

/-- `TICK(v)` (R160): decrement, and on the transition to zero raise T1 and, in continuous mode, reload. -/
def Via.tick (v : Via) : Via :=
  if v.t1c = 0#16 then v
  else if v.t1c - 1#16 = 0#16 then
    ({ v with t1c := if v.continuous then v.latches else 0#16 }).raise t1Flag
  else { v with t1c := v.t1c - 1#16 }

/-- `CtrlIn(v, line, ttl)` (R163), one atomic step with its flag update (R71). -/
def Via.ctrlIn (v : Via) (line : CtrlLine) (ttl : Bool) : Via :=
  if !v.inputMode line then v
  else if ttl = v.level line then v
  else if v.edgeMatches line (v.level line) ttl then (v.raise (flagBit line)).setLevel ttl line
  else v.setLevel ttl line

/-- `CtrlOut(v, line)` (R164): the polarity bit in output mode, no value in input mode. -/
def Via.ctrlOut (v : Via) (line : CtrlLine) : Option Bool :=
  if v.inputMode line then none else some (v.polarity line)

/-- `In(port, e)` (R170): only the input-configured bits are overwritten. -/
def Via.portIn (v : Via) (p : Port) (e : Byte) : Via :=
  v.setPort ((e &&& ~~~v.direction p) ||| (v.port p &&& v.direction p)) p

/-- The ATNA⊕CA1 gate (R192): ATNA is the output bit `(PB & DDRB)[0]`, CA1 the level the last Sync left (conflict C11). -/
def Via.gate (v : Via) : Bool := bit (v.portOut .b) 0 ^^ v.ca1

/-- What Port B bit `n` drives onto its line: its TTL value as an output, nothing as an input (R190, R191). -/
def Via.drivenByBit (v : Via) (n : Nat) : Signal :=
  if bit v.ddrb n then fromTtl (bit v.pb n) else .floating

/-- `DriveRead(v)` (R190): side-effect-free, the gate overriding NRFD and NDAC (R192). -/
def driveRead (v : Via) : BusState :=
  { dav := v.drivenByBit 6
    eoi := v.drivenByBit 3
    ndac := if v.gate then .asserted else v.drivenByBit 2
    nrfd := if v.gate then .asserted else v.drivenByBit 1
    srq := .floating
    atn := .floating
    ren := .floating
    ifc := .floating
    dio := v.portOut .a }

/-- The external byte `e` a Sync delivers to Port B: bits 0, 4 and 5 keep the register's values (R194, R197, D8). -/
def driveByte (v : Via) (m : BusState) : Byte :=
  setBit (setBit (setBit (setBit (setBit v.pb 7 (!toTtl m.atn)) 1 (toTtl m.nrfd)) 2 (toTtl m.ndac))
    3 (toTtl m.eoi)) 6 (toTtl m.dav)

/-- `DriveWrite(v, m)` (R194). -/
def driveWrite (v : Via) (m : BusState) : Via :=
  let atnIn := !toTtl m.atn
  let v := v.portIn .b (driveByte v m)
  let v := v.ctrlIn .ca1 atnIn
  let v := v.ctrlIn .ca2 (toTtl m.nrfd)
  v.portIn .a m.dio

/-- `HostRead(host)` (R211): the outgoing lines, and the complement of the natural byte. -/
def hostRead (h : HostConnector) : BusState := { h.out with dio := ~~~h.out.dio }

/-- `HostWrite(host, m)` (R212): the whole incoming record, its byte natural again. -/
def hostWrite (h : HostConnector) (m : BusState) : HostConnector := { h with inp := { m with dio := ~~~m.dio } }

/-- `SYNC` (R105): both reads before either write, one atomic step (R70). -/
def State.syncCable (s : State) : State :=
  let m := mergeBus (hostRead s.host) (driveRead s.via0)
  { s with host := hostWrite s.host m, via0 := driveWrite s.via0 m, bm := { s.bm with synced := true } }

end Sys2Proof.Machine
end

