-- ==== Sys2Proof/Machine/HostWrites.lean ====
section
/-! DEFINITION. The cable Sync and the host-connector writes (R105, R213 to R215). -/

namespace Sys2Proof.Machine

/-- `SYNC` (R105). -/
def execSync (s : State) : Out := .next s.syncCable

/-- Set one outgoing line of the host (R213). -/
def State.hostSet (s : State) (sig : Signal) (line : BusLine) : State := s.writeOut (s.host.out.setLine sig line)

/-- `HSET DAV, sig` (R213). -/
def execHsetDav (sig : Signal) (s : State) : Out := .next (s.hostSet sig .dav)

/-- `HSET EOI, sig` (R213). -/
def execHsetEoi (sig : Signal) (s : State) : Out := .next (s.hostSet sig .eoi)

/-- `HSET NDAC, sig` (R213). -/
def execHsetNdac (sig : Signal) (s : State) : Out := .next (s.hostSet sig .ndac)

/-- `HSET NRFD, sig` (R213). -/
def execHsetNrfd (sig : Signal) (s : State) : Out := .next (s.hostSet sig .nrfd)

/-- `HSET SRQ, sig` (R213). -/
def execHsetSrq (sig : Signal) (s : State) : Out := .next (s.hostSet sig .srq)

/-- `HSET ATN, sig` (R213). -/
def execHsetAtn (sig : Signal) (s : State) : Out := .next (s.hostSet sig .atn)

/-- `HSET REN, sig` (R213). -/
def execHsetRen (sig : Signal) (s : State) : Out := .next (s.hostSet sig .ren)

/-- `HSET IFC, sig` (R213). -/
def execHsetIfc (sig : Signal) (s : State) : Out := .next (s.hostSet sig .ifc)

/-- `HDIO #b` (R214). -/
def execHdio (b : Byte) (s : State) : Out := .next (s.writeOut { s.host.out with dio := b })

/-- `HRESET` (R215): the outgoing record re-floated, the incoming one untouched. -/
def execHreset (s : State) : Out := .next (s.writeOut BusState.released)

end Sys2Proof.Machine
end

