-- ==== Sys2Proof/Machine/Peeks.lean ====
section
/-! DEFINITION. The side-effect-free reads (R147), one meaning each over `State.peekReg`. -/

namespace Sys2Proof.Machine

/-- `PEEK PB` (R147). -/
def execPeekPb (k : ViaId) (s : State) : Out := .next (s.peekReg k .pb)

/-- `PEEK PA` (R147). -/
def execPeekPa (k : ViaId) (s : State) : Out := .next (s.peekReg k .pa)

/-- `PEEK DDRB` (R147). -/
def execPeekDdrb (k : ViaId) (s : State) : Out := .next (s.peekReg k .ddrb)

/-- `PEEK DDRA` (R147). -/
def execPeekDdra (k : ViaId) (s : State) : Out := .next (s.peekReg k .ddra)

/-- `PEEK T1LO` (R147). -/
def execPeekT1lo (k : ViaId) (s : State) : Out := .next (s.peekReg k .t1lo)

/-- `PEEK T1HI` (R147). -/
def execPeekT1hi (k : ViaId) (s : State) : Out := .next (s.peekReg k .t1hi)

/-- `PEEK T1LLO` (R147). -/
def execPeekT1llo (k : ViaId) (s : State) : Out := .next (s.peekReg k .t1llo)

/-- `PEEK T1LHI` (R147). -/
def execPeekT1lhi (k : ViaId) (s : State) : Out := .next (s.peekReg k .t1lhi)

/-- `PEEK U8` (R147). -/
def execPeekU8 (k : ViaId) (s : State) : Out := .next (s.peekReg k .u8)

/-- `PEEK U9` (R147). -/
def execPeekU9 (k : ViaId) (s : State) : Out := .next (s.peekReg k .u9)

/-- `PEEK UA` (R147). -/
def execPeekUa (k : ViaId) (s : State) : Out := .next (s.peekReg k .ua)

/-- `PEEK ACR` (R147). -/
def execPeekAcr (k : ViaId) (s : State) : Out := .next (s.peekReg k .acr)

/-- `PEEK PCR` (R147). -/
def execPeekPcr (k : ViaId) (s : State) : Out := .next (s.peekReg k .pcr)

/-- `PEEK IFR` (R147). -/
def execPeekIfr (k : ViaId) (s : State) : Out := .next (s.peekReg k .ifr)

/-- `PEEK IE` (R147). -/
def execPeekIe (k : ViaId) (s : State) : Out := .next (s.peekReg k .ie)

/-- `PEEK UF` (R147). -/
def execPeekUf (k : ViaId) (s : State) : Out := .next (s.peekReg k .uf)

end Sys2Proof.Machine
end

