-- ==== Sys2Proof/Machine/BusMaster.lean ====
section
/-! DEFINITION. The reference bus master: its bounded poll, its sequences step by step, their failures and their end (R216 to R229). -/

namespace Sys2Proof.Machine

/-- Write the bus master's control state. -/
def State.setBm (s : State) (b : BusMaster) : State := { s with bm := b }

/-- Go on with the next numbered step. -/
def State.advance (s : State) : State := s.setBm { s.bm with step := s.bm.step + 1 }

/-- A step that only writes `host.out`: the write, then the next step. -/
def State.driveStepOut (s : State) (b : BusState) : State := (s.writeOut b).advance

/-- Does a timeout run the command cleanup? In a command, and in the Talk and Untalk phases of an input sequence; a byte
read has none, standing alone or inside one (R218, R223, R224, R227). -/
def BusMaster.cleansUp (b : BusMaster) : Bool :=
  match b.seq with
  | .cmd => true
  | .input => b.phase != .read
  | .idle | .readByte => false

/-- The command cleanup: ATN is negated and nothing else changes (R223, D18). -/
def State.cleanUp (s : State) : State :=
  if s.bm.cleansUp then s.writeOut { s.host.out with atn := .negated } else s

/-- `fail(Timeout(seq, tag, in))` (R218, R262). -/
def State.fail (s : State) (tag : PollTag) : State :=
  let s := s.setBm { s.bm with result := .timeout s.bm.seq tag s.host.inp }
  let s := s.cleanUp
  s.setBm { s.bm with seq := .idle, step := 0, retries := 0 }

/-- One turn at a poll (R216): a sample only while `bm.synced`, and no step at all without it (R217). -/
def State.poll (s : State) (tag : PollTag) (c : Bool) : State :=
  if !s.bm.synced then s
  else if c then (s.setBm { s.bm with retries := 0 }).advance
  else
    let s := s.setBm { s.bm with retries := s.bm.retries + 1 }
    if s.bm.retries = Config.pollRetries then s.fail tag else s

/-- The unnumbered head of a command, without `bm.seq` (R219): its bytes, the primary round, no result, step 1 next. -/
def BusMaster.startCommand (b : BusMaster) (p s : Byte) : BusMaster :=
  { b with prim := p, sec := s, round := .primary, result := .none, step := 1 }

/-- The unnumbered head of a byte read, without `bm.seq` (R224). -/
def BusMaster.startRead (b : BusMaster) : BusMaster := { b with result := .none, step := 1 }

/-- The end of a sequence with result `r`. -/
def BusMaster.finish (b : BusMaster) (r : SeqResult) : BusMaster := { b with result := r, seq := .idle, step := 0 }

/-- What follows command step 12: the end of a command, the reads of an input sequence, or its end (R219, R226;
DEDUCED, log entry 9). -/
def BusMaster.afterCommand (b : BusMaster) : BusMaster :=
  match b.seq, b.phase with
  | .input, .talk => ({ b with phase := .read }).startRead
  | .input, _ => b.finish (.okBytes b.bytes)
  | _, _ => b.finish .ok

/-- What follows byte-read step 9: the end of a byte read; inside an input sequence the next byte, or the UNTALK command
after the terminator or `MAX_INPUT` bytes (R224, R226; DEDUCED, log entry 9). -/
def BusMaster.afterRead (b : BusMaster) : BusMaster :=
  match b.seq with
  | .input =>
    let b := { b with bytes := b.bytes ++ [b.byte] }
    if b.byte = Config.terminator ∨ b.bytes.length = Config.maxInput then
      ({ b with phase := .untalk }).startCommand Config.untalkByte Config.noSecondary
    else b.startRead
  | _ => b.finish (.okByte b.byte)

/-- Command step 11 (R219, R220): once, and only with a secondary byte, put it on DIO and go back to step 5. -/
def State.commandStep11 (s : State) : State :=
  if s.bm.round = .primary ∧ s.bm.sec ≠ Config.noSecondary then
    let s := s.writeOut { s.host.out with dio := s.bm.sec ||| Config.secondMark }
    s.setBm { s.bm with round := .secondary, step := 5 }
  else s.advance

/-- Command step 12 (R219, R221). -/
def State.commandStep12 (s : State) : State :=
  let s := s.writeOut { s.host.out with atn := .negated, nrfd := .asserted, ndac := .asserted }
  s.setBm s.bm.afterCommand

/-- One numbered step of a command, one atomic host step (R219). No other step number occurs (DEDUCED, log entry 19). -/
def State.commandStep (s : State) : State :=
  match s.bm.step with
  | 1 => s.driveStepOut BusState.released
  | 2 => s.driveStepOut { s.host.out with atn := .asserted }
  | 3 => s.poll .ack (s.host.inp.ndac == .asserted)
  | 4 => s.driveStepOut { s.host.out with dio := s.bm.prim ||| Config.talkMark }
  | 5 => s.poll .ready (s.host.inp.ndac == .asserted && s.host.inp.nrfd == .negated)
  | 6 => s.driveStepOut { s.host.out with dav := .asserted }
  | 7 => s.poll .busy (s.host.inp.nrfd == .asserted)
  | 8 => s.poll .accepted (s.host.inp.ndac == .negated)
  | 9 => s.driveStepOut { s.host.out with dav := .negated, dio := Config.dioReleased }
  | 10 => s.poll .idle (s.host.inp.ndac == .asserted)
  | 11 => s.commandStep11
  | 12 => s.commandStep12
  | _ => s

/-- Byte-read step 6 (R225): with EOI asserted the byte is replaced by the terminator. -/
def State.substituteEoi (s : State) : State :=
  if s.host.inp.eoi = .asserted then s.setBm { s.bm with byte := Config.terminator } else s

/-- Byte-read step 9 (R224). -/
def State.readStep9 (s : State) : State :=
  let s := s.writeOut { s.host.out with ndac := .asserted, nrfd := .asserted }
  s.setBm s.bm.afterRead

/-- One numbered step of a byte read, one atomic host step (R224). No other step number occurs (DEDUCED, log entry 19). -/
def State.readStep (s : State) : State :=
  match s.bm.step with
  | 1 => s.driveStepOut { s.host.out with dav := .floating, nrfd := .asserted, ndac := .asserted }
  | 2 => s.driveStepOut { s.host.out with nrfd := .negated }
  | 3 => s.poll .dav (s.host.inp.dav == .asserted)
  | 4 => s.driveStepOut { s.host.out with nrfd := .asserted }
  | 5 => (s.setBm { s.bm with byte := s.host.inp.dio }).advance
  | 6 => s.substituteEoi.advance
  | 7 => s.driveStepOut { s.host.out with ndac := .negated }
  | 8 => s.poll .davRelease (s.host.inp.dav == .negated)
  | 9 => s.readStep9
  | _ => s

/-- The bus master's turn (R228): nothing while idle (R44), else the step its sequence is at. A turn without an enabled step
changes nothing (DEDUCED, log entry 20). -/
def State.hostStep (s : State) : State :=
  match s.bm.seq with
  | .idle => s
  | .cmd => s.commandStep
  | .readByte => s.readStep
  | .input => if s.bm.phase = .read then s.readStep else s.commandStep

end Sys2Proof.Machine
end

