-- ==== Sys2Proof/Machine/Sequences.lean ====
section
/-! DEFINITION. The bus-master sequences' transactions: each starts its sequence, whose numbered steps `State.hostStep` then takes (R219, R224, R226, R228). -/

namespace Sys2Proof.Machine

/-- Start a sequence, refused unless the bus master is idle (R228, D33; DEDUCED, log entry 11). -/
def State.startSequence (s : State) (b : BusMaster) : Out :=
  if s.bm.seq = .idle then .next (s.setBm b) else .refused .sequenceRunning

/-- `CMD #p, #sec` (R219). -/
def execCmd (p sec : Byte) (s : State) : Out := s.startSequence (({ s.bm with seq := .cmd }).startCommand p sec)

/-- `READBYTE` (R224). -/
def execReadbyte (s : State) : Out := s.startSequence ({ s.bm with seq := .readByte }).startRead

/-- `INPUT #p, #sec` (R226). -/
def execInput (p sec : Byte) (s : State) : Out :=
  s.startSequence (({ s.bm with seq := .input, phase := .talk, bytes := [] }).startCommand p sec)

end Sys2Proof.Machine
end

