-- ==== Sys2Proof/Machine/ViaControl.lean ====
section
/-! DEFINITION. The clock tick, the control lines, the GPIO side, the interrupt query and the reset of a VIA (R160 to R172, R290). -/

namespace Sys2Proof.Machine

/-- `TICK` (R160). -/
def execTick (k : ViaId) (s : State) : Out := .next (s.setVia (s.via k).tick k)

/-- `CTRLIN CA2, t` (R163). -/
def execCtrlinCa2 (k : ViaId) (t : Bool) (s : State) : Out := .next (s.setVia ((s.via k).ctrlIn .ca2 t) k)

/-- `CTRLIN CA1, t` (R163). -/
def execCtrlinCa1 (k : ViaId) (t : Bool) (s : State) : Out := .next (s.setVia ((s.via k).ctrlIn .ca1 t) k)

/-- `CTRLIN CB2, t` (R163). -/
def execCtrlinCb2 (k : ViaId) (t : Bool) (s : State) : Out := .next (s.setVia ((s.via k).ctrlIn .cb2 t) k)

/-- `CTRLIN CB1, t` (R163). -/
def execCtrlinCb1 (k : ViaId) (t : Bool) (s : State) : Out := .next (s.setVia ((s.via k).ctrlIn .cb1 t) k)

/-- `GIN B, #e` (R170). -/
def execGinB (k : ViaId) (e : Byte) (s : State) : Out := .next (s.setVia ((s.via k).portIn .b e) k)

/-- `GIN A, #e` (R170). -/
def execGinA (k : ViaId) (e : Byte) (s : State) : Out := .next (s.setVia ((s.via k).portIn .a e) k)

/-- `GOUT B` (R171). -/
def execGoutB (k : ViaId) (s : State) : Out := .next (s.returning (.byte ((s.via k).portOut .b)))

/-- `GOUT A` (R171). -/
def execGoutA (k : ViaId) (s : State) : Out := .next (s.returning (.byte ((s.via k).portOut .a)))

/-- `CTRLOUT` of a line that can drive an output (R164): the level in output mode, refused in input mode (D23; DEDUCED,
log entry 10). -/
def State.controlOutput (s : State) (k : ViaId) (line : OutLine) : Out :=
  match (s.via k).ctrlOut (outLine line) with
  | some t => .next (s.returning (.level t))
  | none => .refused (.controlOutputUndefined line)

/-- `CTRLOUT CA2` (R164). -/
def execCtrloutCa2 (k : ViaId) (s : State) : Out := s.controlOutput k .ca2

/-- `CTRLOUT CB2` (R164). -/
def execCtrloutCb2 (k : ViaId) (s : State) : Out := s.controlOutput k .cb2

/-- `CHKIRQ` (R172). -/
def execChkirq (k : ViaId) (s : State) : Out := .next (s.returning (.level (s.via k).irq))

/-- `IRQLINE` (R172, R40). -/
def execIrqline (s : State) : Out := .next (s.returning (.level s.irqLine))

/-- `RESET` (R290): `via[k]` alone. -/
def execReset (k : ViaId) (s : State) : Out := .next (s.setVia Via.reset k)

end Sys2Proof.Machine
end

