-- ==== Sys2Proof/Machine/ViaReads.lean ====
section
/-! DEFINITION. The CPU reads of the sixteen offsets (R121 to R133), one meaning each over `State.cpuRead`. -/

namespace Sys2Proof.Machine

/-- `RD PB` (R121): returns PB and clears CB1, and CB2 in input mode. -/
def execRdPb (k : ViaId) (s : State) : Out := .next (s.cpuRead k .pb)

/-- `RD PA` (R122): returns PA and clears CA1, and CA2 in input mode. -/
def execRdPa (k : ViaId) (s : State) : Out := .next (s.cpuRead k .pa)

/-- `RD DDRB` (R123): returns the register, with no side effect. -/
def execRdDdrb (k : ViaId) (s : State) : Out := .next (s.cpuRead k .ddrb)

/-- `RD DDRA` (R124): returns the register, with no side effect. -/
def execRdDdra (k : ViaId) (s : State) : Out := .next (s.cpuRead k .ddra)

/-- `RD T1LO` (R125): returns the counter's low byte and clears T1. -/
def execRdT1lo (k : ViaId) (s : State) : Out := .next (s.cpuRead k .t1lo)

/-- `RD T1HI` (R126): returns the counter's high byte; the T1 flag survives. -/
def execRdT1hi (k : ViaId) (s : State) : Out := .next (s.cpuRead k .t1hi)

/-- `RD T1LLO` (R127): returns the register, with no side effect. -/
def execRdT1llo (k : ViaId) (s : State) : Out := .next (s.cpuRead k .t1llo)

/-- `RD T1LHI` (R128): returns the register, with no side effect. -/
def execRdT1lhi (k : ViaId) (s : State) : Out := .next (s.cpuRead k .t1lhi)

/-- `RD U8` (R133): returns 0x00 and changes nothing: an undefined offset. -/
def execRdU8 (k : ViaId) (s : State) : Out := .next (s.cpuRead k .u8)

/-- `RD U9` (R133): returns 0x00 and changes nothing: an undefined offset. -/
def execRdU9 (k : ViaId) (s : State) : Out := .next (s.cpuRead k .u9)

/-- `RD UA` (R133): returns 0x00 and changes nothing: an undefined offset. -/
def execRdUa (k : ViaId) (s : State) : Out := .next (s.cpuRead k .ua)

/-- `RD ACR` (R129): returns the register, with no side effect. -/
def execRdAcr (k : ViaId) (s : State) : Out := .next (s.cpuRead k .acr)

/-- `RD PCR` (R130): returns the register, with no side effect. -/
def execRdPcr (k : ViaId) (s : State) : Out := .next (s.cpuRead k .pcr)

/-- `RD IFR` (R131): returns the stored flags with bit 7 = IRQ and clears nothing. -/
def execRdIfr (k : ViaId) (s : State) : Out := .next (s.cpuRead k .ifr)

/-- `RD IE` (R132): returns the stored enables with bit 7 = 0. -/
def execRdIe (k : ViaId) (s : State) : Out := .next (s.cpuRead k .ie)

/-- `RD UF` (R133): returns 0x00 and changes nothing: an undefined offset. -/
def execRdUf (k : ViaId) (s : State) : Out := .next (s.cpuRead k .uf)

end Sys2Proof.Machine
end

