-- ==== Sys2Proof/Machine/ViaWrites.lean ====
section
/-! DEFINITION. The CPU writes of the sixteen offsets (R134 to R146), one meaning each over `State.cpuWrite`. -/

namespace Sys2Proof.Machine

/-- `WR PB, #d` (R134): replaces the output-configured bits and clears CB1, and CB2 in input mode. -/
def execWrPb (k : ViaId) (d : Byte) (s : State) : Out := .next (s.cpuWrite k d .pb)

/-- `WR PA, #d` (R135): replaces the output-configured bits and clears CA1, and CA2 in input mode. -/
def execWrPa (k : ViaId) (d : Byte) (s : State) : Out := .next (s.cpuWrite k d .pa)

/-- `WR DDRB, #d` (R136): stores the byte. -/
def execWrDdrb (k : ViaId) (d : Byte) (s : State) : Out := .next (s.cpuWrite k d .ddrb)

/-- `WR DDRA, #d` (R137): stores the byte. -/
def execWrDdra (k : ViaId) (d : Byte) (s : State) : Out := .next (s.cpuWrite k d .ddra)

/-- `WR T1LO, #d` (R138): stores the low latch. -/
def execWrT1lo (k : ViaId) (d : Byte) (s : State) : Out := .next (s.cpuWrite k d .t1lo)

/-- `WR T1HI, #d` (R139): stores the high latch, loads the counter and clears T1. -/
def execWrT1hi (k : ViaId) (d : Byte) (s : State) : Out := .next (s.cpuWrite k d .t1hi)

/-- `WR T1LLO, #d` (R140): stores the low latch. -/
def execWrT1llo (k : ViaId) (d : Byte) (s : State) : Out := .next (s.cpuWrite k d .t1llo)

/-- `WR T1LHI, #d` (R141): stores the high latch and clears T1. -/
def execWrT1lhi (k : ViaId) (d : Byte) (s : State) : Out := .next (s.cpuWrite k d .t1lhi)

/-- `WR U8, #d` (R146): does nothing: an undefined offset. -/
def execWrU8 (k : ViaId) (d : Byte) (s : State) : Out := .next (s.cpuWrite k d .u8)

/-- `WR U9, #d` (R146): does nothing: an undefined offset. -/
def execWrU9 (k : ViaId) (d : Byte) (s : State) : Out := .next (s.cpuWrite k d .u9)

/-- `WR UA, #d` (R146): does nothing: an undefined offset. -/
def execWrUa (k : ViaId) (d : Byte) (s : State) : Out := .next (s.cpuWrite k d .ua)

/-- `WR ACR, #d` (R142): stores the byte. -/
def execWrAcr (k : ViaId) (d : Byte) (s : State) : Out := .next (s.cpuWrite k d .acr)

/-- `WR PCR, #d` (R143): stores the byte. -/
def execWrPcr (k : ViaId) (d : Byte) (s : State) : Out := .next (s.cpuWrite k d .pcr)

/-- `WR IFR, #d` (R144): clears the CA and CB flags whose data bit is 1. -/
def execWrIfr (k : ViaId) (d : Byte) (s : State) : Out := .next (s.cpuWrite k d .ifr)

/-- `WR IE, #d` (R145): sets or clears the enables whose data bit is 1. -/
def execWrIe (k : ViaId) (d : Byte) (s : State) : Out := .next (s.cpuWrite k d .ie)

/-- `WR UF, #d` (R146): does nothing: an undefined offset. -/
def execWrUf (k : ViaId) (d : Byte) (s : State) : Out := .next (s.cpuWrite k d .uf)

end Sys2Proof.Machine
end

