-- ==== Sys2Proof/Machine/Dispatch.lean ====
section
/-! DEFINITION. The dispatch: one arm per row of the opcode table, each one call of its meaning. -/

namespace Sys2Proof.Machine

def exec (i : Instr) (s : State) : Host.Outcome State Fault Refusal :=
  match i with
  | .rdPb k => Sys2Proof.Machine.execRdPb k s
  | .rdPa k => Sys2Proof.Machine.execRdPa k s
  | .rdDdrb k => Sys2Proof.Machine.execRdDdrb k s
  | .rdDdra k => Sys2Proof.Machine.execRdDdra k s
  | .rdT1lo k => Sys2Proof.Machine.execRdT1lo k s
  | .rdT1hi k => Sys2Proof.Machine.execRdT1hi k s
  | .rdT1llo k => Sys2Proof.Machine.execRdT1llo k s
  | .rdT1lhi k => Sys2Proof.Machine.execRdT1lhi k s
  | .rdU8 k => Sys2Proof.Machine.execRdU8 k s
  | .rdU9 k => Sys2Proof.Machine.execRdU9 k s
  | .rdUa k => Sys2Proof.Machine.execRdUa k s
  | .rdAcr k => Sys2Proof.Machine.execRdAcr k s
  | .rdPcr k => Sys2Proof.Machine.execRdPcr k s
  | .rdIfr k => Sys2Proof.Machine.execRdIfr k s
  | .rdIe k => Sys2Proof.Machine.execRdIe k s
  | .rdUf k => Sys2Proof.Machine.execRdUf k s
  | .wrPb k d => Sys2Proof.Machine.execWrPb k d s
  | .wrPa k d => Sys2Proof.Machine.execWrPa k d s
  | .wrDdrb k d => Sys2Proof.Machine.execWrDdrb k d s
  | .wrDdra k d => Sys2Proof.Machine.execWrDdra k d s
  | .wrT1lo k d => Sys2Proof.Machine.execWrT1lo k d s
  | .wrT1hi k d => Sys2Proof.Machine.execWrT1hi k d s
  | .wrT1llo k d => Sys2Proof.Machine.execWrT1llo k d s
  | .wrT1lhi k d => Sys2Proof.Machine.execWrT1lhi k d s
  | .wrU8 k d => Sys2Proof.Machine.execWrU8 k d s
  | .wrU9 k d => Sys2Proof.Machine.execWrU9 k d s
  | .wrUa k d => Sys2Proof.Machine.execWrUa k d s
  | .wrAcr k d => Sys2Proof.Machine.execWrAcr k d s
  | .wrPcr k d => Sys2Proof.Machine.execWrPcr k d s
  | .wrIfr k d => Sys2Proof.Machine.execWrIfr k d s
  | .wrIe k d => Sys2Proof.Machine.execWrIe k d s
  | .wrUf k d => Sys2Proof.Machine.execWrUf k d s
  | .peekPb k => Sys2Proof.Machine.execPeekPb k s
  | .peekPa k => Sys2Proof.Machine.execPeekPa k s
  | .peekDdrb k => Sys2Proof.Machine.execPeekDdrb k s
  | .peekDdra k => Sys2Proof.Machine.execPeekDdra k s
  | .peekT1lo k => Sys2Proof.Machine.execPeekT1lo k s
  | .peekT1hi k => Sys2Proof.Machine.execPeekT1hi k s
  | .peekT1llo k => Sys2Proof.Machine.execPeekT1llo k s
  | .peekT1lhi k => Sys2Proof.Machine.execPeekT1lhi k s
  | .peekU8 k => Sys2Proof.Machine.execPeekU8 k s
  | .peekU9 k => Sys2Proof.Machine.execPeekU9 k s
  | .peekUa k => Sys2Proof.Machine.execPeekUa k s
  | .peekAcr k => Sys2Proof.Machine.execPeekAcr k s
  | .peekPcr k => Sys2Proof.Machine.execPeekPcr k s
  | .peekIfr k => Sys2Proof.Machine.execPeekIfr k s
  | .peekIe k => Sys2Proof.Machine.execPeekIe k s
  | .peekUf k => Sys2Proof.Machine.execPeekUf k s
  | .tick k => Sys2Proof.Machine.execTick k s
  | .ctrlinCa2 k t => Sys2Proof.Machine.execCtrlinCa2 k t s
  | .ctrlinCa1 k t => Sys2Proof.Machine.execCtrlinCa1 k t s
  | .ctrlinCb2 k t => Sys2Proof.Machine.execCtrlinCb2 k t s
  | .ctrlinCb1 k t => Sys2Proof.Machine.execCtrlinCb1 k t s
  | .ginB k e => Sys2Proof.Machine.execGinB k e s
  | .ginA k e => Sys2Proof.Machine.execGinA k e s
  | .goutB k => Sys2Proof.Machine.execGoutB k s
  | .goutA k => Sys2Proof.Machine.execGoutA k s
  | .ctrloutCa2 k => Sys2Proof.Machine.execCtrloutCa2 k s
  | .ctrloutCb2 k => Sys2Proof.Machine.execCtrloutCb2 k s
  | .chkirq k => Sys2Proof.Machine.execChkirq k s
  | .irqline => Sys2Proof.Machine.execIrqline s
  | .reset k => Sys2Proof.Machine.execReset k s
  | .sync => Sys2Proof.Machine.execSync s
  | .hsetDav sig => Sys2Proof.Machine.execHsetDav sig s
  | .hsetEoi sig => Sys2Proof.Machine.execHsetEoi sig s
  | .hsetNdac sig => Sys2Proof.Machine.execHsetNdac sig s
  | .hsetNrfd sig => Sys2Proof.Machine.execHsetNrfd sig s
  | .hsetSrq sig => Sys2Proof.Machine.execHsetSrq sig s
  | .hsetAtn sig => Sys2Proof.Machine.execHsetAtn sig s
  | .hsetRen sig => Sys2Proof.Machine.execHsetRen sig s
  | .hsetIfc sig => Sys2Proof.Machine.execHsetIfc sig s
  | .hdio b => Sys2Proof.Machine.execHdio b s
  | .hreset => Sys2Proof.Machine.execHreset s
  | .cmd p sec => Sys2Proof.Machine.execCmd p sec s
  | .readbyte => Sys2Proof.Machine.execReadbyte s
  | .input p sec => Sys2Proof.Machine.execInput p sec s

end Sys2Proof.Machine
end

