-- ==== Sys2Proof/Machine/DriveLoop.lean ====
section
/-! DEFINITION. The drive loop and the turns the machine takes on its own (R240 to R246). -/

namespace Sys2Proof.Machine

/-- Move the drive loop to a phase (R45). -/
def State.setLoop (s : State) (p : LoopPhase) : State := { s with loop := p }

/-- One event of the CPU collaborator inside `CpuStep` (R241): an access, the instruction's end, or the fatal error that
halts the loop for good (R245). -/
def State.cpuEvent (s : State) : CpuEvent → State
  | .read addr => s.memRead Config.viaBase0 Config.viaBase1 addr
  | .write addr d => s.memWrite Config.viaBase0 Config.viaBase1 addr d
  | .done => s.setLoop .tick
  | .fatal => s.setLoop .halted

/-- The Tick phase: `TICK via[0]; TICK via[1]` (R242). -/
def State.tickBoth (s : State) : State := { s with via0 := s.via0.tick, via1 := s.via1.tick }

/-- The drive loop's next atomic step (R240); `e` is the CPU's event where the loop is at `CpuStep`. Halted is final, and its turn
changes nothing (R245; DEDUCED, log entries 16 and 20). -/
def State.driveStep (s : State) (e : CpuEvent) : State :=
  match s.loop with
  | .cpuStep => s.cpuEvent e
  | .tick => s.tickBoth.setLoop .sync
  | .sync => s.syncCable.setLoop .irqCheck
  | .irqCheck => s.offerInterrupt.setLoop .cpuStep
  | .halted => s

/-- With no input queued the two agents run on their own, in an interleaving and with CPU events that nothing fixes (R246,
D15, D24; log entries 6 and 7). -/
def State.ownTurn (s : State) : State :=
  let n := s.io.turns
  let s := { s with io := { s.io with turns := n + 1 } }
  match Config.turn n with
  | .driveLoop => s.driveStep (Config.cpuEvent n)
  | .busMaster => s.hostStep

end Sys2Proof.Machine
end

