-- ==== Sys2Proof/Machine/Text.lean ====
section
/-! DEFINITION. Words and numbers of the textual interfaces, over lists of characters: whitespace-separated words (R91), bare hex arguments (D34), and the assembly syntax's numbers (R89). -/

namespace Sys2Proof.Machine

/-- Split at characters of a separator class, dropping empty words; the characters of the word being read come first. -/
def splitWords (isSep : Char → Bool) : List Char → List Char → List (List Char)
  | cur, [] => if cur.isEmpty then [] else [cur]
  | cur, c :: cs =>
    if isSep c then (if cur.isEmpty then splitWords isSep [] cs else cur :: splitWords isSep [] cs)
    else splitWords isSep (cur ++ [c]) cs

/-- A space, a tab or an end of line. -/
def isBlank (c : Char) : Bool := c == ' ' || c == '\t' || c == '\r' || c == '\n'

/-- The value of a hex digit in either letter case (D34). -/
def hexDigit (c : Char) : Option Nat :=
  if '0'.toNat ≤ c.toNat ∧ c.toNat ≤ '9'.toNat then some (c.toNat - '0'.toNat)
  else if 'a'.toNat ≤ c.toNat ∧ c.toNat ≤ 'f'.toNat then some (c.toNat - 'a'.toNat + 10)
  else if 'A'.toNat ≤ c.toNat ∧ c.toNat ≤ 'F'.toNat then some (c.toNat - 'A'.toNat + 10)
  else none

/-- The value of a decimal digit. -/
def decDigit (c : Char) : Option Nat :=
  if '0'.toNat ≤ c.toNat ∧ c.toNat ≤ '9'.toNat then some (c.toNat - '0'.toNat) else none

/-- Read digits after a value already read. -/
def digitsFrom (base : Nat) (digit : Char → Option Nat) : Nat → List Char → Option Nat
  | acc, [] => some acc
  | acc, c :: cs =>
    match digit c with
    | some d => digitsFrom base digit (acc * base + d) cs
    | none => none

/-- A monitor hex argument of 1 to `most` digits, with no prefix (R263, D34). -/
def hexArgument (most : Nat) (cs : List Char) : Option Nat :=
  if cs.isEmpty || decide (most < cs.length) then none else digitsFrom 16 hexDigit 0 cs

/-- A monitor hex byte: one or two digits. -/
def hexByte (cs : List Char) : Option Byte := (hexArgument 2 cs).map (BitVec.ofNat 8)

/-- A number of the assembly syntax, `0x..` or decimal (R89). -/
def asmNumber : List Char → Option Nat
  | '0' :: 'x' :: c :: cs => digitsFrom 16 hexDigit 0 (c :: cs)
  | c :: cs => digitsFrom 10 decDigit 0 (c :: cs)
  | [] => none

/-- The value of the first entry of a table with that name. -/
def lookupName {α : Type} (table : List (String × α)) (cs : List Char) : Option α :=
  match table with
  | [] => none
  | (name, x) :: rest => if name.toList = cs then some x else lookupName rest cs

end Sys2Proof.Machine
end

