-- ==== Sys2Proof/Machine/Monitor.lean ====
section
/-! DEFINITION. The monitor's command lines as the transactions they issue (R91, R92, R247, R263). -/

namespace Sys2Proof.Machine

/-- What the monitor does with a line. -/
inductive MonitorAction where
  /-- `exit`: the process ends. -/
  | exit
  /-- Issue a transaction. -/
  | issue (i : Instr)
  /-- Answer, with no change of block state. -/
  | answer (c : Console)
  deriving DecidableEq, Repr

/-- The `<reg>` of `via <reg>`, all on `via[0]` (R92, D31). -/
def monitorRegisters : List (String × Instr) :=
  [("a", .peekPa .via0), ("adir", .peekDdra .via0), ("b", .peekPb .via0), ("bdir", .peekDdrb .via0),
   ("t1lo", .peekT1lo .via0), ("t1hi", .peekT1hi .via0), ("ifr", .peekIfr .via0), ("ie", .peekIe .via0),
   ("acr", .peekAcr .via0), ("pcr", .peekPcr .via0), ("irq", .chkirq .via0)]

/-- The monitor's command names (R91). -/
inductive MonitorCommand where
  | exit
  | dump
  | via
  | peek
  | poke
  | openTalk
  | input
  deriving DecidableEq, Repr

/-- Their spellings (R91). -/
def monitorCommands : List (String × MonitorCommand) :=
  [("exit", .exit), ("dump", .dump), ("via", .via), ("peek", .peek), ("poke", .poke), ("open", .openTalk),
   ("input", .input)]

/-- Issue a transaction, or report an input format error where there is none (E2). -/
def issueOr (i : Option Instr) : MonitorAction :=
  match i with
  | some i => .issue i
  | none => .answer .formatError

/-- The two-byte sequence of `open` and `input`: a primary byte and, where present, a secondary; 0xFF when absent (R91, D17). -/
def sequenceOf (make : Byte → Byte → Instr) : List (List Char) → Option Instr
  | [p] => (hexByte p).map fun p => make p Config.noSecondary
  | [p, s] =>
    match hexByte p, hexByte s with
    | some p, some s => some (make p s)
    | _, _ => none
  | _ => none

/-- RAM is outside the block: a well-formed `peek` or `poke` changes nothing here (R91, R247). -/
def ramAnswer (ok : Bool) : MonitorAction := .answer (if ok then .ram else .formatError)

/-- A command with its arguments; a wrong argument count or a bad argument is an input format error (R91, R263;
DESIGN CHOICE where they are silent, log entry 15). -/
def monitorCommand (c : MonitorCommand) (args : List (List Char)) : MonitorAction :=
  match c, args with
  | .exit, [] => .exit
  | .dump, [] => .answer .dumped
  | .via, [r] => issueOr (lookupName monitorRegisters r)
  | .peek, [a] => ramAnswer (hexArgument 4 a).isSome
  | .poke, [a, d] => ramAnswer ((hexArgument 4 a).isSome && (hexArgument 2 d).isSome)
  | .openTalk, args => issueOr (sequenceOf .cmd args)
  | .input, args => issueOr (sequenceOf .input args)
  | _, _ => .answer .formatError

/-- One line of the monitor (R91): a line that names no command is answered `?`. -/
def monitorLine (cs : List Char) : MonitorAction :=
  match splitWords isBlank [] cs with
  | [] => .answer .unknown
  | name :: args =>
    match lookupName monitorCommands name with
    | some c => monitorCommand c args
    | none => .answer .unknown

end Sys2Proof.Machine
end

