-- ==== Sys2Proof/Machine/Step.lean ====
section
/-! DEFINITION. One step of the machine: the next queued turn, or a turn of its own where none is queued. -/

namespace Sys2Proof.Machine

/-- Run the first transaction of a queued list at instance `k`; the words after it stay at the head of the queue. A word
that spells no operation is refused (R87; DEDUCED, log entry 12); an empty list is no transaction (DESIGN CHOICE, log
entry 4). -/
def runTransactions (k : ViaId) (ws : List Word) (s : State) : Out :=
  match ws with
  | [] => .next s
  | w :: rest =>
    match decode k (w :: rest) with
    | .ok (i, more) => exec i (s.requeue k more)
    | .error e => .refused (.undecodable e)

/-- The monitor reads a line (R91). -/
def runLine (cs : List Char) (s : State) : Out :=
  match monitorLine cs with
  | .exit => .fault .processExit
  | .issue i => exec i (s.answering .issued)
  | .answer c => .next (s.answering c)

/-- Take one turn of the outside world's. -/
def takeInput (i : Input) (s : State) : Out :=
  match i with
  | .transactions k ws => runTransactions k ws s
  | .drive e => .next (s.driveStep e)
  | .host => .next s.hostStep
  | .line cs => runLine cs s

/-- One step: every interleaving of the agents' atomic steps is some queue of turns or some run of own turns (R69, R246). -/
def step (s : State) : Host.Outcome State Fault Refusal :=
  match s.io.inputs with
  | [] => .next s.ownTurn
  | i :: rest => takeInput i (s.withInputs rest)

/-- Queue the table row's instruction, and nothing after it, as the next turn, at the default instance `@0` (R89; DEDUCED,
log entry 3; the load that it stands for is log entry 1). -/
def State.withFetchWord (s : State) (nbits w : Nat) : State :=
  s.withInputs (.transactions .via0 (tableWords nbits w) :: s.io.inputs)

end Sys2Proof.Machine
end

