-- ==== Sys2Proof/Machine/Assembly.lean ====
section
/-! DEFINITION. The assembly syntax of the transactions (R89) and the pseudo-operations with their expansions (R90). No step reads it: it is how a harness writes transactions down. -/

namespace Sys2Proof.Machine

/-- The pseudo-operations (R90); the ones on a VIA carry its instance. -/
inductive Pseudo where
  | ldt1 (k : ViaId) (n : Word)
  | ieset (k : ViaId) (m : Byte)
  | ieclr (k : ViaId) (m : Byte)
  | ifrclr (k : ViaId) (m : Byte)
  | ticks (k : ViaId) (n : Nat)
  | iter
  | openTalk (p : Byte)
  | openTalkSecond (p s : Byte)
  | untalk
  deriving DecidableEq, Repr

/-- The expansions of R90. -/
def Pseudo.expand : Pseudo → List Instr
  | .ldt1 k n => [.wrT1lo k (n.extractLsb' 0 8), .wrT1hi k (n.extractLsb' 8 8)]
  | .ieset k m => [.wrIe k (0x80#8 ||| m)]
  | .ieclr k m => [.wrIe k (m &&& 0x7F#8)]
  | .ifrclr k m => [.wrIfr k m]
  | .ticks k n => List.replicate n (.tick k)
  | .iter => [.tick .via0, .tick .via1, .sync, .irqline]
  | .openTalk p => [.cmd p Config.noSecondary]
  | .openTalkSecond p s => [.cmd p s]
  | .untalk => [.cmd Config.untalkByte Config.noSecondary]

/-- The register names of R82 with their offsets. -/
def registerNames : List (String × Reg) :=
  [("PB", .pb), ("PA", .pa), ("DDRB", .ddrb), ("DDRA", .ddra), ("T1LO", .t1lo), ("T1HI", .t1hi),
   ("T1LLO", .t1llo), ("T1LHI", .t1lhi), ("U8", .u8), ("U9", .u9), ("UA", .ua), ("ACR", .acr),
   ("PCR", .pcr), ("IFR", .ifr), ("IE", .ie), ("UF", .uf)]

/-- `<reg>`: a name of R82 or a number 0 to 15 (R89). -/
def asmRegister (cs : List Char) : Option Reg :=
  match lookupName registerNames cs with
  | some r => some r
  | none =>
    match asmNumber cs with
    | some n => if n < 16 then some (regOf n) else none
    | none => none

/-- A number below a bound, as a value of a width. -/
def asmBelow (w : Nat) (cs : List Char) : Option (BitVec w) :=
  match asmNumber cs with
  | some n => if n < 2 ^ w then some (BitVec.ofNat w n) else none
  | none => none

/-- `#` before an immediate of a width (R89). -/
def asmImmediate (w : Nat) : List Char → Option (BitVec w)
  | '#' :: cs => asmBelow w cs
  | _ => none

/-- The TTL level of `CTRLIN`, 0 or 1 (R89). -/
def asmLevel (cs : List Char) : Option Bool := lookupName [("0", false), ("1", true)] cs

/-- The signal names (R89). -/
def signalNames : List (String × Signal) :=
  [("ASSERTED", .asserted), ("NEGATED", .negated), ("FLOATING", .floating)]

/-- An operand or mnemonic and its instance suffix `@k`, `@0` the default (R80, R89). -/
def splitInstance (cs : List Char) : Option (List Char × ViaId) :=
  match cs.span (· != '@') with
  | (name, []) => some (name, .via0)
  | (name, ['@', '0']) => some (name, .via0)
  | (name, ['@', '1']) => some (name, .via1)
  | _ => none

/-- The operations written `<mnemonic>[@k]`, and the ones with no operand and no instance. -/
def asmBare (k : ViaId) : List (String × List Instr) :=
  [("TICK", [.tick k]), ("CHKIRQ", [.chkirq k]), ("RESET", [.reset k])]

/-- The operations that take neither operand nor instance (R89, R90). -/
def asmAlone : List (String × List Instr) :=
  [("IRQLINE", [.irqline]), ("SYNC", [.sync]), ("HRESET", [.hreset]), ("READBYTE", [.readbyte]),
   ("ITER", Pseudo.iter.expand), ("UNTALK", Pseudo.untalk.expand)]

/-- The operations written `<mnemonic> <target>[@k]` (R89). -/
def asmTarget (mnemonic : List Char) (k : ViaId) (target : List Char) : Option (List Instr) :=
  if mnemonic = "RD".toList then (asmRegister target).map fun r => [rdInstr k r]
  else if mnemonic = "PEEK".toList then (asmRegister target).map fun r => [peekInstr k r]
  else if mnemonic = "GOUT".toList then lookupName [("A", [Instr.goutA k]), ("B", [.goutB k])] target
  else if mnemonic = "CTRLOUT".toList then lookupName [("CA2", [Instr.ctrloutCa2 k]), ("CB2", [.ctrloutCb2 k])] target
  else none

/-- The operations written `<mnemonic> <target>[@k], <operand>` (R89). -/
def asmTargetOperand (mnemonic : List Char) (k : ViaId) (target operand : List Char) : Option (List Instr) :=
  if mnemonic = "WR".toList then
    (asmRegister target).bind fun r => (asmImmediate 8 operand).map fun d => [wrInstr k d r]
  else if mnemonic = "CTRLIN".toList then
    (asmLevel operand).bind fun t =>
      lookupName [("CA1", [Instr.ctrlinCa1 k t]), ("CA2", [.ctrlinCa2 k t]), ("CB1", [.ctrlinCb1 k t]),
        ("CB2", [.ctrlinCb2 k t])] target
  else if mnemonic = "GIN".toList then
    (asmImmediate 8 operand).bind fun e => lookupName [("A", [Instr.ginA k e]), ("B", [.ginB k e])] target
  else none

/-- The operations written `<mnemonic>[@k] <operand>`: `HDIO`, `OPEN #p` and the one-operand pseudo-operations (R89, R90). -/
def asmOperand (mnemonic : List Char) (k : ViaId) (operand : List Char) : Option (List Instr) :=
  if mnemonic = "LDT1".toList then (asmImmediate 16 operand).map fun n => (Pseudo.ldt1 k n).expand
  else if mnemonic = "IESET".toList then (asmImmediate 8 operand).map fun m => (Pseudo.ieset k m).expand
  else if mnemonic = "IECLR".toList then (asmImmediate 8 operand).map fun m => (Pseudo.ieclr k m).expand
  else if mnemonic = "IFRCLR".toList then (asmImmediate 8 operand).map fun m => (Pseudo.ifrclr k m).expand
  else if mnemonic = "TICKS".toList then (asmNumber operand).map fun n => (Pseudo.ticks k n).expand
  else none

/-- The operations written `<mnemonic> <operand>` that take no instance. -/
def asmAloneOperand (mnemonic operand : List Char) : Option (List Instr) :=
  if mnemonic = "HDIO".toList then (asmImmediate 8 operand).map fun b => [.hdio b]
  else if mnemonic = "OPEN".toList then (asmImmediate 8 operand).map fun p => (Pseudo.openTalk p).expand
  else none

/-- The operations written `<mnemonic> <operand>, <operand>` that take no instance (R89, R90). -/
def asmTwoOperands (mnemonic x y : List Char) : Option (List Instr) :=
  if mnemonic = "HSET".toList then
    (lookupName signalNames y).bind fun sig =>
      lookupName [("DAV", [Instr.hsetDav sig]), ("EOI", [.hsetEoi sig]), ("NDAC", [.hsetNdac sig]),
        ("NRFD", [.hsetNrfd sig]), ("SRQ", [.hsetSrq sig]), ("ATN", [.hsetAtn sig]), ("REN", [.hsetRen sig]),
        ("IFC", [.hsetIfc sig])] x
  else
    (asmImmediate 8 x).bind fun p => (asmImmediate 8 y).bind fun s =>
      lookupName [("CMD", [Instr.cmd p s]), ("INPUT", [.input p s]), ("OPEN", (Pseudo.openTalkSecond p s).expand)] mnemonic

/-- The first of two readings that succeeds. -/
def firstReading (x y : Option (List Instr)) : Option (List Instr) :=
  match x with
  | some a => some a
  | none => y

/-- A mnemonic and its operand texts, those between commas (R89). The suffix `@k` stands after the target, as R89 writes it,
or after the mnemonic, as spec/95's program P1 does (log entry 14). -/
def assembleWords (mnemonic : List Char) (operands : List (List Char)) : Option (List Instr) :=
  match operands with
  | [] =>
    firstReading (lookupName asmAlone mnemonic)
      ((splitInstance mnemonic).bind fun (name, k) => lookupName (asmBare k) name)
  | [x] =>
    firstReading (asmAloneOperand mnemonic x)
      (firstReading ((splitInstance x).bind fun (target, k) => asmTarget mnemonic k target)
        ((splitInstance mnemonic).bind fun (name, k) => firstReading (asmOperand name k x) (asmTarget name k x)))
  | [x, y] =>
    firstReading (asmTwoOperands mnemonic x y)
      (firstReading ((splitInstance x).bind fun (target, k) => asmTargetOperand mnemonic k target y)
        ((splitInstance mnemonic).bind fun (name, k) => asmTargetOperand name k x y))
  | _ => none

/-- Drop a comment, from `;` on (R89). -/
def dropComment (cs : List Char) : List Char := cs.takeWhile (· != ';')

/-- The operand texts of a line after its mnemonic: one word between commas each. -/
def operandTexts : List (List Char) → Option (List (List Char))
  | [] => some []
  | [x] => if x = [','] then none else some [x]
  | x :: comma :: rest =>
    if x ≠ [','] ∧ comma = [','] ∧ rest ≠ [] then (operandTexts rest).map (x :: ·) else none

/-- Set each comma apart as a word of its own. -/
def spaceCommas : List Char → List Char
  | [] => []
  | c :: cs => if c = ',' then ' ' :: ',' :: ' ' :: spaceCommas cs else c :: spaceCommas cs

/-- One line of assembly (R89, R90): its transactions, none for an empty or comment line, no reading for any other text. -/
def assembleLine (cs : List Char) : Option (List Instr) :=
  match splitWords isBlank [] (spaceCommas (dropComment cs)) with
  | [] => some []
  | mnemonic :: rest =>
    match operandTexts rest with
    | some operands => assembleWords mnemonic operands
    | none => none

end Sys2Proof.Machine
end

