-- ==== Sys2Proof/Safety.lean ====
section
/-! DEFINITION. The terms the claims use: the legal states, the frames of a transaction, turns and runs, the polls' conditions, and which transaction may raise or lower a flag. -/

namespace Sys2Proof.Machine

/-! Frames. -/

/-- `i` answers a next state that hands back `r` and changes nothing of the block. -/
def AnswersOnly (i : Instr) (s : State) (r : Returned) : Prop :=
  exec i s = .next { s with io := { s.io with ret := r } }

/-- `i` answers a next state in which `via[k]` satisfies `P`, the ports are `io`, and everything else is as it was. -/
def OnlyVia (i : Instr) (s : State) (k : ViaId) (io : Ports) (P : Via → Prop) : Prop :=
  ∃ t, exec i s = .next t ∧ P (t.via k) ∧ t.via k.other = s.via k.other ∧
    t.host = s.host ∧ t.bm = s.bm ∧ t.loop = s.loop ∧ t.io = io

/-- `i` changes `via[k]` alone, as `P` says, and returns nothing. -/
def ChangesVia (i : Instr) (s : State) (k : ViaId) (P : Via → Prop) : Prop := OnlyVia i s k s.io P

/-- `i` hands back `r` and changes `via[k]` alone, as `P` says. -/
def ReadsVia (i : Instr) (s : State) (k : ViaId) (r : Returned) (P : Via → Prop) : Prop :=
  OnlyVia i s k { s.io with ret := r } P

/-- The flags of `v'` are those of `v` but for the positions in `lowered`, which are 0. -/
def FlagsLowered (v v' : Via) (lowered : Nat → Bool) : Prop :=
  ∀ n, n < 7 → bit v'.ifr n = (bit v.ifr n && !lowered n)

/-- Nothing but the flags of the VIA may differ. -/
def SameButFlags (v v' : Via) : Prop := { v' with ifr := v.ifr } = v

/-! Runs and turns. -/

/-- Transactions issued one after another, each to its end. -/
def runInstrs : List Instr → State → Out
  | [], s => .next s
  | i :: is, s =>
    match exec i s with
    | .next t => runInstrs is t
    | .fault r => .fault r
    | .refused r => .refused r

/-- The transactions run to their end one after another, change `via[k]` alone, as `P` says, and return nothing. -/
def RunChangesVia (is : List Instr) (s : State) (k : ViaId) (P : Via → Prop) : Prop :=
  ∃ t, runInstrs is s = .next t ∧ P (t.via k) ∧ t.via k.other = s.via k.other ∧
    t.host = s.host ∧ t.bm = s.bm ∧ t.loop = s.loop ∧ t.io = s.io

/-- The machine's step when the next turn is `i`. -/
def turn (i : Input) (s : State) : Out := step (s.withInputs (i :: s.io.inputs))

/-- Turns taken one after another. -/
def runTurns : List Input → State → Out
  | [], s => .next s
  | i :: is, s =>
    match turn i s with
    | .next t => runTurns is t
    | .fault r => .fault r
    | .refused r => .refused r

/-- A turn of one of the two agents, not a harness's or the monitor's. -/
def Input.IsAgentTurn (i : Input) : Prop := i = .host ∨ ∃ e, i = .drive e

/-- `n` steps that are all turns of the bus master. -/
def hostTurns (n : Nat) (s : State) : Out :=
  Sys2Proof.core.run n (s.withInputs (List.replicate n .host ++ s.io.inputs))

/-! Legal states. -/

/-- IFR bits 2 and 5 are never set (R30). -/
def Via.Legal (v : Via) : Prop := bit v.ifr 2 = false ∧ bit v.ifr 5 = false

/-- No line is FLOATING (R36, R41, R107). -/
def BusState.NoneFloating (b : BusState) : Prop := ∀ l, b.line l ≠ .floating

/-- Is a command's step next (R219, R226)? -/
def BusMaster.inCommand (b : BusMaster) : Bool :=
  b.seq == .cmd || (b.seq == .input && b.phase != .read)

/-- Is a byte read's step next (R224, R226)? -/
def BusMaster.inRead (b : BusMaster) : Bool :=
  b.seq == .readByte || (b.seq == .input && b.phase == .read)

/-- The poll the bus master is at, if it is at one (R219 steps 3, 5, 7, 8, 10; R224 steps 3, 8). -/
def BusMaster.pollTag (b : BusMaster) : Option PollTag :=
  if b.inCommand then
    match b.step with
    | 3 => some .ack
    | 5 => some .ready
    | 7 => some .busy
    | 8 => some .accepted
    | 10 => some .idle
    | _ => none
  else if b.inRead then
    match b.step with
    | 3 => some .dav
    | 8 => some .davRelease
    | _ => none
  else none

/-- The condition a poll waits for on the incoming latch (R219, R224). -/
def PollTag.Holds : PollTag → BusState → Prop
  | .ack, b => b.ndac = .asserted
  | .ready, b => b.ndac = .asserted ∧ b.nrfd = .negated
  | .busy, b => b.nrfd = .asserted
  | .accepted, b => b.ndac = .negated
  | .idle, b => b.ndac = .asserted
  | .dav, b => b.dav = .asserted
  | .davRelease, b => b.dav = .negated

/-- Legal control state of the bus master: a step number its sequence has; retries only at a poll and below the limit; no
result while a sequence runs; the bytes of an input sequence within `MAX_INPUT` and, while reading, none the terminator; a
secondary round only with a secondary byte. -/
structure BusMaster.Legal (b : BusMaster) : Prop where
  idleStep : b.seq = .idle → b.step = 0
  commandStep : b.inCommand = true → 1 ≤ b.step ∧ b.step ≤ 12
  readStep : b.inRead = true → 1 ≤ b.step ∧ b.step ≤ 9
  retriesBelow : b.retries < Config.pollRetries
  retriesAtPoll : b.pollTag = none → b.retries = 0
  noResultYet : b.seq ≠ .idle → b.result = .none
  bytesBound : b.bytes.length ≤ Config.maxInput
  talking : b.seq = .input → b.phase = .talk → b.bytes = []
  reading : b.seq = .input → b.phase = .read →
    b.bytes.length < Config.maxInput ∧ Config.terminator ∉ b.bytes
  secondRound : b.inCommand = true → b.round = .secondary → b.sec ≠ Config.noSecondary ∧ 5 ≤ b.step

/-- A legal state: what every run from process start keeps (DEDUCED, log entry 19). -/
structure State.Legal (s : State) : Prop where
  via0 : s.via0.Legal
  via1 : s.via1.Legal
  incoming : s.host.inp.NoneFloating
  bm : s.bm.Legal

/-! What may raise or lower a flag (R266). -/

/-- May the transaction raise flag `n` of `via[k]`? -/
def Raises (i : Instr) (k : ViaId) (n : Nat) : Prop :=
  (n = 0 ∧ ((∃ t, i = .ctrlinCa2 k t) ∨ (k = .via0 ∧ i = .sync))) ∨
  (n = 1 ∧ ((∃ t, i = .ctrlinCa1 k t) ∨ (k = .via0 ∧ i = .sync))) ∨
  (n = 3 ∧ ∃ t, i = .ctrlinCb2 k t) ∨
  (n = 4 ∧ ∃ t, i = .ctrlinCb1 k t) ∨
  (n = 6 ∧ i = .tick k)

/-- May the transaction lower flag `n` of `via[k]`, whose registers are `v`? -/
def Lowers (i : Instr) (k : ViaId) (v : Via) (n : Nat) : Prop :=
  i = .reset k ∨
  (n = 0 ∧ v.inputMode .ca2 = true ∧ (i = .rdPa k ∨ ∃ d, i = .wrPa k d)) ∨
  (n = 1 ∧ (i = .rdPa k ∨ ∃ d, i = .wrPa k d)) ∨
  (n = 3 ∧ v.inputMode .cb2 = true ∧ (i = .rdPb k ∨ ∃ d, i = .wrPb k d)) ∨
  (n = 4 ∧ (i = .rdPb k ∨ ∃ d, i = .wrPb k d)) ∨
  ((n = 0 ∨ n = 1 ∨ n = 3 ∨ n = 4) ∧ ∃ d, i = .wrIfr k d ∧ bit d n = true) ∨
  (n = 6 ∧ (i = .rdT1lo k ∨ (∃ d, i = .wrT1hi k d) ∨ ∃ d, i = .wrT1lhi k d))

end Sys2Proof.Machine
end

