-- ==== Sys2Proof/WellFormed.lean ====
section
/-! DEFINITION. Which transaction words are legal: R87's list of reserved encodings, clause by clause, written over plain numbers and independently of the decoder. Every term of `Instr` is well-formed by its operands' types (an instance, a byte, a TTL level, a signal), so ill-formed transactions exist as words only. -/

namespace Sys2Proof

/-- The kind field `K`, bits 15:12 of a transaction word (R80), as a number. -/
def WellFormed.kind (w : Word) : Nat := w.toNat / 4096

/-- The selector field `S`, bits 11:8 (R80), as a number. -/
def WellFormed.selector (w : Word) : Nat := w.toNat / 256 % 16

/-- The data field `D`, bits 7:0 (R80), as a number. -/
def WellFormed.data (w : Word) : Nat := w.toNat % 256

/-- R87: "every word with `K` = 0xF". -/
def WellFormed.reservedKind (w : Word) : Bool :=
  WellFormed.kind w == 0xF

/-- R87: "`RD` or `PEEK` with `D` ≠ 0". -/
def WellFormed.readWithData (w : Word) : Bool :=
  (WellFormed.kind w == 0x0 || WellFormed.kind w == 0x2) && WellFormed.data w != 0

/-- R87: "`TICK`, `RESET`, `SYNC`, `READBYTE` with `S` ≠ 0 or `D` ≠ 0". -/
def WellFormed.plainWithOperand (w : Word) : Bool :=
  [0x3, 0x9, 0xA, 0xD].contains (WellFormed.kind w) &&
    (WellFormed.selector w != 0 || WellFormed.data w != 0)

/-- R87: "`CTRLIN` with `S` ∉ {0, 1, 3, 4} or `D` ∉ {0x00, 0x01}". -/
def WellFormed.badControlInput (w : Word) : Bool :=
  WellFormed.kind w == 0x4 &&
    (!([0, 1, 3, 4].contains (WellFormed.selector w)) || !([0, 1].contains (WellFormed.data w)))

/-- R87: "`GIN` with `S` ∉ {0, 1}". -/
def WellFormed.badPortInput (w : Word) : Bool :=
  WellFormed.kind w == 0x5 && !([0, 1].contains (WellFormed.selector w))

/-- R87: "`GOUT` with `S` ∉ {0, 1} or `D` ≠ 0". -/
def WellFormed.badPortOutput (w : Word) : Bool :=
  WellFormed.kind w == 0x6 &&
    (!([0, 1].contains (WellFormed.selector w)) || WellFormed.data w != 0)

/-- R87: "`CTRLOUT` with `S` ∉ {0, 3} or `D` ≠ 0". -/
def WellFormed.badControlOutput (w : Word) : Bool :=
  WellFormed.kind w == 0x7 &&
    (!([0, 3].contains (WellFormed.selector w)) || WellFormed.data w != 0)

/-- R87: "`CHKIRQ` with `S` ∉ {0, 1} or `D` ≠ 0" (`S` = 1 is `IRQLINE`, R81). -/
def WellFormed.badInterruptQuery (w : Word) : Bool :=
  WellFormed.kind w == 0x8 &&
    (!([0, 1].contains (WellFormed.selector w)) || WellFormed.data w != 0)

/-- R87: "kind 0xB with `S` ≤ 7 and `D` > 0x02, or `S` = 9 and `D` ≠ 0, or `S` ≥ 10". -/
def WellFormed.badHostWrite (w : Word) : Bool :=
  WellFormed.kind w == 0xB &&
    (decide (WellFormed.selector w ≤ 7) && decide (2 < WellFormed.data w) ||
      WellFormed.selector w == 9 && WellFormed.data w != 0 ||
      decide (10 ≤ WellFormed.selector w))

/-- R87: "`CMD` or `INPUT` with `S` ≠ 0". -/
def WellFormed.badSequenceSelector (w : Word) : Bool :=
  (WellFormed.kind w == 0xC || WellFormed.kind w == 0xE) && WellFormed.selector w != 0

/-- R87: is the first word of a transaction reserved? -/
def WellFormed.reservedFirstWord (w : Word) : Bool :=
  WellFormed.reservedKind w || WellFormed.readWithData w || WellFormed.plainWithOperand w ||
    WellFormed.badControlInput w || WellFormed.badPortInput w || WellFormed.badPortOutput w ||
    WellFormed.badControlOutput w || WellFormed.badInterruptQuery w || WellFormed.badHostWrite w ||
    WellFormed.badSequenceSelector w

/-- R87: a second word "whose bits 15:8 are not 0x00" is reserved. -/
def WellFormed.reservedSecondWord (w : Word) : Bool := w.toNat / 256 != 0

/-- R83: "2 words when `K` ∈ {0xC, 0xE}, 1 word otherwise". -/
def WellFormed.twoWords (w : Word) : Bool := [0xC, 0xE].contains (WellFormed.kind w)

/-- Do the words begin with one legal transaction (R83, R87)? -/
def WellFormed.startsTransaction : List Word → Bool
  | [] => false
  | w :: rest =>
    !WellFormed.reservedFirstWord w &&
      (!WellFormed.twoWords w ||
        match rest with
        | [] => false
        | w2 :: _ => !WellFormed.reservedSecondWord w2)

end Sys2Proof
end

