-- ==== Sys2Proof/Certificates/Slice0/Obligations.lean ====
section
/-! DEFINITION. The statements for the provers, from the spec's numbered rules. Where a transaction hands a value back, the value stands in the model's return port `io.ret` (log entry 2). -/

open Sys2Proof Sys2Proof.Machine

/-! ## Encoding -/

/-- R80 to R88: the decoder reads back what the encoder writes, for every instruction and every operand, and leaves the
words after it. -/
def Obligations.DecodeEncodeRoundTrip : Prop :=
  ∀ (i : Instr) (rest : List Word), decode i.instanceOf (encode i ++ rest) = .ok (i, rest)

/-- R80 to R88: words the decoder accepts are the encoding of what it answers, and it takes as many as R83 says. -/
def Obligations.DecodedWordsAreTheEncoding : Prop :=
  ∀ (k : ViaId) (w : Word) (ws rest : List Word) (i : Instr), decode k (w :: ws) = .ok (i, rest) →
    w :: ws = encode i ++ rest ∧
      (encode i).length = (if w.toNat / 4096 = 0xC ∨ w.toNat / 4096 = 0xE then 2 else 1)

/-- After R87: the lists the decoder accepts are exactly those `startsTransaction` allows. It leaves out the reserved words of
R87's list, the empty list, and, which R87 does not list, a `CMD` or `INPUT` word with no second word after it (the model's
reading, log entry 12, DEDUCED). A turn that issues a non-empty list of the left-out ones is refused; the turn, and the empty
list it lets through, are the model's (log entries 1 and 4, DESIGN CHOICE). -/
def Obligations.ReservedWordsAreRefused : Prop :=
  ∀ (k : ViaId) (ws : List Word),
    (WellFormed.startsTransaction ws = true ↔ ∃ i rest, decode k ws = .ok (i, rest)) ∧
    (ws ≠ [] → WellFormed.startsTransaction ws = false →
      ∀ s : State, ∃ e, turn (.transactions k ws) s = .refused (.undecodable e))

/-- R81, R82, R84 to R86: words written out from the encoding tables decode to what they stand for (tier 1 sanity). -/
def Obligations.SpecWordsDecode : Prop :=
  decode .via1 [0x0D00#16] = .ok (.rdIfr .via1, []) ∧
  decode .via0 [0x1E82#16, 0x3000#16] = .ok (.wrIe .via0 0x82#8, [0x3000#16]) ∧
  decode .via0 [0x2F00#16] = .ok (.peekUf .via0, []) ∧
  decode .via0 [0x4101#16] = .ok (.ctrlinCa1 .via0 true, []) ∧
  decode .via0 [0x51A5#16] = .ok (.ginA .via0 0xA5#8, []) ∧
  decode .via0 [0x7300#16] = .ok (.ctrloutCb2 .via0, []) ∧
  decode .via0 [0xB500#16] = .ok (.hsetAtn .asserted, []) ∧
  decode .via0 [0xB8FF#16] = .ok (.hdio 0xFF#8, []) ∧
  decode .via0 [0xC008#16, 0x00FF#16] = .ok (.cmd 0x08#8 0xFF#8, []) ∧
  decode .via0 [0xE008#16, 0x00FF#16] = .ok (.input 0x08#8 0xFF#8, [])

/-- The queue of turns is the model's own (log entries 1 and 4). A step whose next turn is a list of transactions runs the first of them on the state from which that turn is taken away,
the words after it put back at the head of the queue. -/
def Obligations.StepRunsTheDecodedInstruction : Prop :=
  ∀ (s : State) (k : ViaId) (ws more : List Word) (queue : List Input) (i : Instr),
    s.io.inputs = .transactions k ws :: queue → decode k ws = .ok (i, more) →
      step s = exec i { s with io := { s.io with
        inputs := if more = [] then queue else .transactions k more :: queue } }

/-! ## CPU reads -/

/-- R121, R122: `RD PB` and `RD PA` hand back the port register, clear Cx1 always and Cx2 in input mode, and change
nothing else. That the mode bits are PCR bits 7 and 3 is the spec's own choice, not the source's (R29, R120; log entry 13,
PRESUMED). -/
def Obligations.PortReads : Prop :=
  ∀ (k : ViaId) (s : State) (rest : List Word),
    ReadsVia (.rdPb k) s k (.byte (s.via k).pb) (fun v => SameButFlags (s.via k) v ∧
      FlagsLowered (s.via k) v (fun n => n == 4 || (n == 3 && !bit (s.via k).pcr 7))) ∧
    ReadsVia (.rdPa k) s k (.byte (s.via k).pa) (fun v => SameButFlags (s.via k) v ∧
      FlagsLowered (s.via k) v (fun n => n == 1 || (n == 0 && !bit (s.via k).pcr 3))) ∧
    decode k (0x0000#16 :: rest) = .ok (.rdPb k, rest) ∧
    decode k (0x0100#16 :: rest) = .ok (.rdPa k, rest)

/-- R125, R126: the counter's two bytes, and the T1 flag cleared by the low one alone. -/
def Obligations.TimerCounterReads : Prop :=
  ∀ (k : ViaId) (s : State) (rest : List Word), ∃ lo hi : Byte,
    hi.toNat * 256 + lo.toNat = (s.via k).t1c.toNat ∧
    ReadsVia (.rdT1lo k) s k (.byte lo) (fun v => SameButFlags (s.via k) v ∧
      FlagsLowered (s.via k) v (fun n => n == 6)) ∧
    AnswersOnly (.rdT1hi k) s (.byte hi) ∧
    decode k (0x0400#16 :: rest) = .ok (.rdT1lo k, rest) ∧
    decode k (0x0500#16 :: rest) = .ok (.rdT1hi k, rest)

/-- R123, R124, R127 to R130: the plain registers read as they stand, with no side effect. -/
def Obligations.PlainRegisterReads : Prop :=
  ∀ (k : ViaId) (s : State) (rest : List Word),
    AnswersOnly (.rdDdrb k) s (.byte (s.via k).ddrb) ∧ decode k (0x0200#16 :: rest) = .ok (.rdDdrb k, rest) ∧
    AnswersOnly (.rdDdra k) s (.byte (s.via k).ddra) ∧ decode k (0x0300#16 :: rest) = .ok (.rdDdra k, rest) ∧
    AnswersOnly (.rdT1llo k) s (.byte (s.via k).t1ll) ∧ decode k (0x0600#16 :: rest) = .ok (.rdT1llo k, rest) ∧
    AnswersOnly (.rdT1lhi k) s (.byte (s.via k).t1lh) ∧ decode k (0x0700#16 :: rest) = .ok (.rdT1lhi k, rest) ∧
    AnswersOnly (.rdAcr k) s (.byte (s.via k).acr) ∧ decode k (0x0B00#16 :: rest) = .ok (.rdAcr k, rest) ∧
    AnswersOnly (.rdPcr k) s (.byte (s.via k).pcr) ∧ decode k (0x0C00#16 :: rest) = .ok (.rdPcr k, rest)

/-- R131, R132: IFR reads its stored flags with bit 7 exactly when some flag is set whose enable is set; IE reads its stored
enables with bit 7 = 0; neither read has a side effect. In a legal state (log entry 19, `StepKeepsLegalStates`) bits 2 and 5
of IFR read 0. -/
def Obligations.InterruptRegisterReads : Prop :=
  ∀ (k : ViaId) (s : State) (rest : List Word), ∃ f e : Byte,
    AnswersOnly (.rdIfr k) s (.byte f) ∧ AnswersOnly (.rdIe k) s (.byte e) ∧
    (∀ n, n < 7 → bit f n = bit (s.via k).ifr n) ∧
    (bit f 7 = true ↔ ∃ n, n < 7 ∧ bit (s.via k).ifr n = true ∧ bit (s.via k).ie n = true) ∧
    ((s.via k).Legal → bit f 2 = false ∧ bit f 5 = false) ∧
    (∀ n, n < 7 → bit e n = bit (s.via k).ie n) ∧ bit e 7 = false ∧
    decode k (0x0D00#16 :: rest) = .ok (.rdIfr k, rest) ∧
    decode k (0x0E00#16 :: rest) = .ok (.rdIe k, rest)

/-- R133, R146: the undefined offsets read 0x00 and ignore every write; nothing of the block changes. -/
def Obligations.UndefinedOffsets : Prop :=
  ∀ (k : ViaId) (d : Byte) (s : State),
    (∀ row ∈ [(0x0800#16, Instr.rdU8 k), (0x0900#16, .rdU9 k), (0x0A00#16, .rdUa k), (0x0F00#16, .rdUf k),
        (0x1800#16 + d.setWidth 16, .wrU8 k d), (0x1900#16 + d.setWidth 16, .wrU9 k d),
        (0x1A00#16 + d.setWidth 16, .wrUa k d), (0x1F00#16 + d.setWidth 16, .wrUf k d)],
      ∀ rest, decode k (row.1 :: rest) = .ok (row.2, rest)) ∧
    AnswersOnly (.rdU8 k) s (.byte 0x00#8) ∧ AnswersOnly (.rdU9 k) s (.byte 0x00#8) ∧
    AnswersOnly (.rdUa k) s (.byte 0x00#8) ∧ AnswersOnly (.rdUf k) s (.byte 0x00#8) ∧
    exec (.wrU8 k d) s = .next s ∧ exec (.wrU9 k d) s = .next s ∧
    exec (.wrUa k d) s = .next s ∧ exec (.wrUf k d) s = .next s

/-- R65: only offsets 0, 1 and 4 have a side effect on a read, and a second read hands back the same value and changes
nothing further. -/
def Obligations.SecondReadIsIdempotent : Prop :=
  ∀ (k : ViaId) (r : Reg) (s : State), ∃ t,
    exec (rdInstr k r) s = .next t ∧ exec (rdInstr k r) t = .next t ∧
    (r ≠ .pb → r ≠ .pa → r ≠ .t1lo → t.via0 = s.via0 ∧ t.via1 = s.via1)

/-! ## CPU writes -/

/-- R134, R135: a port write replaces the output-configured bits alone and clears Cx1 always, Cx2 in input mode. That the
mode bits are PCR bits 7 and 3 is the spec's own choice, not the source's (R29, R120; log entry 13, PRESUMED). -/
def Obligations.PortWrites : Prop :=
  ∀ (k : ViaId) (d : Byte) (s : State),
    ChangesVia (.wrPb k d) s k (fun v =>
      (∀ n, n < 8 → bit v.pb n = if bit (s.via k).ddrb n then bit d n else bit (s.via k).pb n) ∧
      FlagsLowered (s.via k) v (fun n => n == 4 || (n == 3 && !bit (s.via k).pcr 7)) ∧
      { v with pb := (s.via k).pb, ifr := (s.via k).ifr } = s.via k) ∧
    ChangesVia (.wrPa k d) s k (fun v =>
      (∀ n, n < 8 → bit v.pa n = if bit (s.via k).ddra n then bit d n else bit (s.via k).pa n) ∧
      FlagsLowered (s.via k) v (fun n => n == 1 || (n == 0 && !bit (s.via k).pcr 3)) ∧
      { v with pa := (s.via k).pa, ifr := (s.via k).ifr } = s.via k) ∧
    (∀ rest, decode k ((0x1000#16 + d.setWidth 16) :: rest) = .ok (.wrPb k d, rest)) ∧
    (∀ rest, decode k ((0x1100#16 + d.setWidth 16) :: rest) = .ok (.wrPa k d, rest))

/-- R136, R137: a direction write stores its byte and no other field; `GOUT` shows the new output bits at once. -/
def Obligations.DirectionWrites : Prop :=
  ∀ (k : ViaId) (d : Byte) (s : State),
    ChangesVia (.wrDdrb k d) s k (fun v => v = { s.via k with ddrb := d }) ∧
    ChangesVia (.wrDdra k d) s k (fun v => v = { s.via k with ddra := d }) ∧
    (∃ t b, runInstrs [.wrDdrb k d, .goutB k] s = .next t ∧ t.io.ret = .byte b ∧
      ∀ n, n < 8 → bit b n = (bit (s.via k).pb n && bit d n)) ∧
    (∃ t b, runInstrs [.wrDdra k d, .goutA k] s = .next t ∧ t.io.ret = .byte b ∧
      ∀ n, n < 8 → bit b n = (bit (s.via k).pa n && bit d n)) ∧
    (∀ rest, decode k ((0x1200#16 + d.setWidth 16) :: rest) = .ok (.wrDdrb k d, rest)) ∧
    (∀ rest, decode k ((0x1300#16 + d.setWidth 16) :: rest) = .ok (.wrDdra k d, rest))

/-- R138, R140: both write the low latch and nothing else: the counter and the T1 flag stand. -/
def Obligations.LowLatchWrites : Prop :=
  ∀ (k : ViaId) (d : Byte) (s : State),
    ChangesVia (.wrT1lo k d) s k (fun v => v = { s.via k with t1ll := d }) ∧
    ChangesVia (.wrT1llo k d) s k (fun v => v = { s.via k with t1ll := d }) ∧
    (∀ rest, decode k ((0x1400#16 + d.setWidth 16) :: rest) = .ok (.wrT1lo k d, rest)) ∧
    (∀ rest, decode k ((0x1600#16 + d.setWidth 16) :: rest) = .ok (.wrT1llo k d, rest))

/-- R139, R141: both write the high latch and clear T1; offset 5 also loads the counter with `d : T1LL`. -/
def Obligations.HighLatchWrites : Prop :=
  ∀ (k : ViaId) (d : Byte) (s : State),
    ChangesVia (.wrT1hi k d) s k (fun v => v.t1lh = d ∧ v.t1c.toNat = d.toNat * 256 + (s.via k).t1ll.toNat ∧
      FlagsLowered (s.via k) v (fun n => n == 6) ∧
      { v with t1lh := (s.via k).t1lh, t1c := (s.via k).t1c, ifr := (s.via k).ifr } = s.via k) ∧
    ChangesVia (.wrT1lhi k d) s k (fun v => v.t1lh = d ∧ FlagsLowered (s.via k) v (fun n => n == 6) ∧
      { v with t1lh := (s.via k).t1lh, ifr := (s.via k).ifr } = s.via k) ∧
    (∀ rest, decode k ((0x1500#16 + d.setWidth 16) :: rest) = .ok (.wrT1hi k d, rest)) ∧
    (∀ rest, decode k ((0x1700#16 + d.setWidth 16) :: rest) = .ok (.wrT1lhi k d, rest))

/-- R142, R143: ACR and PCR take the whole byte; no flag and no stored line level moves. -/
def Obligations.ControlRegisterWrites : Prop :=
  ∀ (k : ViaId) (d : Byte) (s : State),
    ChangesVia (.wrAcr k d) s k (fun v => v = { s.via k with acr := d }) ∧
    ChangesVia (.wrPcr k d) s k (fun v => v = { s.via k with pcr := d }) ∧
    (∀ rest, decode k ((0x1B00#16 + d.setWidth 16) :: rest) = .ok (.wrAcr k d, rest)) ∧
    (∀ rest, decode k ((0x1C00#16 + d.setWidth 16) :: rest) = .ok (.wrPcr k d, rest))

/-- R144: write-1-to-clear for CA2, CA1, CB2 and CB1 alone; no write sets a flag, and bits 2, 5 and 6 stand. -/
def Obligations.FlagRegisterWrite : Prop :=
  ∀ (k : ViaId) (d : Byte) (s : State),
    ChangesVia (.wrIfr k d) s k (fun v => SameButFlags (s.via k) v ∧
      FlagsLowered (s.via k) v (fun n => (n == 0 || n == 1 || n == 3 || n == 4) && bit d n)) ∧
    (∀ rest, decode k ((0x1D00#16 + d.setWidth 16) :: rest) = .ok (.wrIfr k d, rest))

/-- R145: data bit 7 chooses whether the enables with a 1 data bit are set or cleared; the others stand. -/
def Obligations.EnableRegisterWrite : Prop :=
  ∀ (k : ViaId) (d : Byte) (s : State),
    ChangesVia (.wrIe k d) s k (fun v => { v with ie := (s.via k).ie } = s.via k ∧
      ∀ n, n < 7 → bit v.ie n = if bit d n then bit d 7 else bit (s.via k).ie n) ∧
    (∀ rest, decode k ((0x1E00#16 + d.setWidth 16) :: rest) = .ok (.wrIe k d, rest))

/-! ## Peek -/

/-- R147: each of the sixteen `PEEK`s hands back what the CPU read of the offset hands back, and changes nothing. -/
def Obligations.PeekReadsWithoutSideEffect : Prop :=
  ∀ (k : ViaId) (s : State), ∀ row ∈
    [(0x2000#16, Instr.peekPb k, Instr.rdPb k), (0x2100#16, .peekPa k, .rdPa k), (0x2200#16, .peekDdrb k, .rdDdrb k),
     (0x2300#16, .peekDdra k, .rdDdra k), (0x2400#16, .peekT1lo k, .rdT1lo k), (0x2500#16, .peekT1hi k, .rdT1hi k),
     (0x2600#16, .peekT1llo k, .rdT1llo k), (0x2700#16, .peekT1lhi k, .rdT1lhi k), (0x2800#16, .peekU8 k, .rdU8 k),
     (0x2900#16, .peekU9 k, .rdU9 k), (0x2A00#16, .peekUa k, .rdUa k), (0x2B00#16, .peekAcr k, .rdAcr k),
     (0x2C00#16, .peekPcr k, .rdPcr k), (0x2D00#16, .peekIfr k, .rdIfr k), (0x2E00#16, .peekIe k, .rdIe k),
     (0x2F00#16, .peekUf k, .rdUf k)],
    (∃ t, exec row.2.2 s = .next t ∧ AnswersOnly row.2.1 s t.io.ret) ∧
    ∀ rest, decode k (row.1 :: rest) = .ok (row.2.1, rest)

/-! ## Timer 1 -/

/-- R160: one tick. A counter at 0 does nothing; a counter above 1 loses one and no flag moves; at 1 the T1 flag is set and
the counter is 0 or, in continuous mode, the latches. -/
def Obligations.TickOnce : Prop :=
  ∀ (k : ViaId) (s : State),
    ChangesVia (.tick k) s k (fun v =>
      { v with t1c := (s.via k).t1c, ifr := (s.via k).ifr } = s.via k ∧
      v.t1c.toNat = (if (s.via k).t1c.toNat = 1 ∧ bit (s.via k).acr 6 = true
        then (s.via k).t1lh.toNat * 256 + (s.via k).t1ll.toNat else (s.via k).t1c.toNat - 1) ∧
      ∀ n, n < 7 → bit v.ifr n = (bit (s.via k).ifr n || (n == 6 && (s.via k).t1c.toNat == 1))) ∧
    (∀ rest, decode k (0x3000#16 :: rest) = .ok (.tick k, rest))

/-- R175, the timer law: after `WR T1HI` loads `N` > 0, tick `n + 1` sets the T1 flag in continuous mode exactly when `N`
divides `n + 1`, and in one-shot mode exactly when `N` is `n + 1`. (`RD T1LO` before that tick clears the flag, so that the
flag after it tells whether that very tick set it.) -/
def Obligations.TimerLaw : Prop :=
  ∀ (k : ViaId) (d : Byte) (s : State) (n : Nat), 0 < d.toNat * 256 + (s.via k).t1ll.toNat →
    ∃ t, runInstrs ([.wrT1hi k d] ++ List.replicate n (.tick k) ++ [.rdT1lo k, .tick k]) s = .next t ∧
      (bit (t.via k).ifr 6 = true ↔
        if bit (s.via k).acr 6 then (d.toNat * 256 + (s.via k).t1ll.toNat) ∣ n + 1
        else n + 1 = d.toNat * 256 + (s.via k).t1ll.toNat)

/-- R304: a load of zero clears the T1 flag and no tick ever sets it, in either mode; a timer whose latches are 0 counts down
to 0 once and stays there. -/
def Obligations.ZeroLoadNeverFires : Prop :=
  ∀ (k : ViaId) (s : State) (n : Nat), (s.via k).t1ll = 0x00#8 →
    (∃ t u, exec (.wrT1hi k 0x00#8) s = .next t ∧ runInstrs (List.replicate n (.tick k)) t = .next u ∧
      u = t ∧ bit (u.via k).ifr 6 = false ∧ (u.via k).t1c = 0x0000#16) ∧
    ((s.via k).t1lh = 0x00#8 → ∃ u, runInstrs (List.replicate n (.tick k)) s = .next u ∧
      (u.via k).t1c.toNat = (s.via k).t1c.toNat - n)

/-! ## Control lines -/

/-- R161, R163: `CtrlIn`. In output mode (CA2, CB2) nothing changes; a delivery of the stored level changes nothing; a
transition stores the new level and sets the line's flag exactly when it goes the way the polarity bit selects. Of the PCR
positions bit 0 alone is the source's; bits 2, 3, 4, 6 and 7 are the spec's own choice (R29, R120; log entry 13, PRESUMED). -/
def Obligations.ControlLineInput : Prop :=
  ∀ (k : ViaId) (t : Bool) (s : State),
    ChangesVia (.ctrlinCa1 k t) s k (fun v => v.ca1 = t ∧
      { v with ca1 := (s.via k).ca1, ifr := (s.via k).ifr } = s.via k ∧
      ∀ n, n < 7 → bit v.ifr n = (bit (s.via k).ifr n || (n == 1 && t != (s.via k).ca1 && t == bit (s.via k).pcr 0))) ∧
    ChangesVia (.ctrlinCb1 k t) s k (fun v => v.cb1 = t ∧
      { v with cb1 := (s.via k).cb1, ifr := (s.via k).ifr } = s.via k ∧
      ∀ n, n < 7 → bit v.ifr n = (bit (s.via k).ifr n || (n == 4 && t != (s.via k).cb1 && t == bit (s.via k).pcr 4))) ∧
    ChangesVia (.ctrlinCa2 k t) s k (fun v => v.ca2 = (if bit (s.via k).pcr 3 then (s.via k).ca2 else t) ∧
      { v with ca2 := (s.via k).ca2, ifr := (s.via k).ifr } = s.via k ∧
      ∀ n, n < 7 → bit v.ifr n = (bit (s.via k).ifr n ||
        (n == 0 && !bit (s.via k).pcr 3 && t != (s.via k).ca2 && t == bit (s.via k).pcr 2))) ∧
    ChangesVia (.ctrlinCb2 k t) s k (fun v => v.cb2 = (if bit (s.via k).pcr 7 then (s.via k).cb2 else t) ∧
      { v with cb2 := (s.via k).cb2, ifr := (s.via k).ifr } = s.via k ∧
      ∀ n, n < 7 → bit v.ifr n = (bit (s.via k).ifr n ||
        (n == 3 && !bit (s.via k).pcr 7 && t != (s.via k).cb2 && t == bit (s.via k).pcr 6))) ∧
    (∀ rest, decode k ((0x4100#16 + if t then 1#16 else 0#16) :: rest) = .ok (.ctrlinCa1 k t, rest)) ∧
    (∀ rest, decode k ((0x4400#16 + if t then 1#16 else 0#16) :: rest) = .ok (.ctrlinCb1 k t, rest)) ∧
    (∀ rest, decode k ((0x4000#16 + if t then 1#16 else 0#16) :: rest) = .ok (.ctrlinCa2 k t, rest)) ∧
    (∀ rest, decode k ((0x4300#16 + if t then 1#16 else 0#16) :: rest) = .ok (.ctrlinCb2 k t, rest))

/-- R164: `CTRLOUT` in output mode hands back the line's polarity bit (it completes in that mode alone); in input mode it is
refused (log entry 10). That the mode and level bits are PCR bits 3 and 2, 7 and 6 is the spec's own choice, not the source's
(R29, R120; log entry 13, PRESUMED). -/
def Obligations.ControlLineOutput : Prop :=
  ∀ (k : ViaId) (s : State),
    (bit (s.via k).pcr 3 = true → AnswersOnly (.ctrloutCa2 k) s (.level (bit (s.via k).pcr 2))) ∧
    (bit (s.via k).pcr 7 = true → AnswersOnly (.ctrloutCb2 k) s (.level (bit (s.via k).pcr 6))) ∧
    (bit (s.via k).pcr 3 = false → exec (.ctrloutCa2 k) s = .refused (.controlOutputUndefined .ca2)) ∧
    (bit (s.via k).pcr 7 = false → exec (.ctrloutCb2 k) s = .refused (.controlOutputUndefined .cb2)) ∧
    (∀ rest, decode k (0x7000#16 :: rest) = .ok (.ctrloutCa2 k, rest)) ∧
    (∀ rest, decode k (0x7300#16 :: rest) = .ok (.ctrloutCb2 k, rest))

/-- R303: a level frozen in output mode is compared again once PCR gives the line back to input mode: the deliveries in
between change nothing, the PCR write moves no level, and the next delivery of the other level in the selected direction sets
the flag. (A next delivery of the frozen level, or of the other one against the selected direction, is a case of
`ControlLineInput`.) That the mode and polarity bits are PCR bits 3 and 2, 7 and 6 is the spec's own choice, not the source's
(R29, R120; log entry 13, PRESUMED). -/
def Obligations.FrozenLevelSurvivesOutputMode : Prop :=
  ∀ (k : ViaId) (s : State) (levels : List Bool) (p : Byte),
    (bit (s.via k).pcr 3 = true → bit p 3 = false → bit p 2 = !(s.via k).ca2 →
      ∃ t u, runInstrs (levels.map (Instr.ctrlinCa2 k) ++ [.wrPcr k p]) s = .next t ∧ (t.via k).ca2 = (s.via k).ca2 ∧
        (t.via k).ifr = (s.via k).ifr ∧ exec (.ctrlinCa2 k (!(s.via k).ca2)) t = .next u ∧
        bit (u.via k).ifr 0 = true ∧ (u.via k).ca2 = !(s.via k).ca2) ∧
    (bit (s.via k).pcr 7 = true → bit p 7 = false → bit p 6 = !(s.via k).cb2 →
      ∃ t u, runInstrs (levels.map (Instr.ctrlinCb2 k) ++ [.wrPcr k p]) s = .next t ∧ (t.via k).cb2 = (s.via k).cb2 ∧
        (t.via k).ifr = (s.via k).ifr ∧ exec (.ctrlinCb2 k (!(s.via k).cb2)) t = .next u ∧
        bit (u.via k).ifr 3 = true ∧ (u.via k).cb2 = !(s.via k).cb2)

/-! ## GPIO side -/

/-- R170: `GIN` overwrites the input-configured bits alone; the outputs, and so `GOUT`, and every flag stand. -/
def Obligations.GpioInput : Prop :=
  ∀ (k : ViaId) (e : Byte) (s : State),
    ChangesVia (.ginB k e) s k (fun v => { v with pb := (s.via k).pb } = s.via k ∧
      (∀ n, n < 8 → bit v.pb n = if bit (s.via k).ddrb n then bit (s.via k).pb n else bit e n) ∧
      v.portOut .b = (s.via k).portOut .b) ∧
    ChangesVia (.ginA k e) s k (fun v => { v with pa := (s.via k).pa } = s.via k ∧
      (∀ n, n < 8 → bit v.pa n = if bit (s.via k).ddra n then bit (s.via k).pa n else bit e n) ∧
      v.portOut .a = (s.via k).portOut .a) ∧
    (∀ rest, decode k ((0x5000#16 + e.setWidth 16) :: rest) = .ok (.ginB k e, rest)) ∧
    (∀ rest, decode k ((0x5100#16 + e.setWidth 16) :: rest) = .ok (.ginA k e, rest))

/-- R171, R25: `GOUT` hands back the output-configured bits, 0 at every input position, with no side effect. -/
def Obligations.GpioOutput : Prop :=
  ∀ (k : ViaId) (s : State), ∃ b a : Byte,
    AnswersOnly (.goutB k) s (.byte b) ∧ AnswersOnly (.goutA k) s (.byte a) ∧
    (∀ n, n < 8 → bit b n = (bit (s.via k).pb n && bit (s.via k).ddrb n)) ∧
    (∀ n, n < 8 → bit a n = (bit (s.via k).pa n && bit (s.via k).ddra n)) ∧
    (∀ rest, decode k (0x6000#16 :: rest) = .ok (.goutB k, rest)) ∧
    (∀ rest, decode k (0x6100#16 :: rest) = .ok (.goutA k, rest))

/-- R173, the port law: after writing direction `d`, writing port `p` and delivering `e`, `RD` and `PEEK` of the port hand
back `(e & ~d) | (p & d)`. -/
def Obligations.PortLaw : Prop :=
  ∀ (k : ViaId) (s : State) (d p e : Byte), ∀ row ∈
    [([Instr.wrDdra k d, .wrPa k p, .ginA k e], Instr.rdPa k), ([.wrDdra k d, .wrPa k p, .ginA k e], .peekPa k),
     ([.wrDdrb k d, .wrPb k p, .ginB k e], .rdPb k), ([.wrDdrb k d, .wrPb k p, .ginB k e], .peekPb k)],
    ∃ t, runInstrs (row.1 ++ [row.2]) s = .next t ∧ t.io.ret = .byte ((e &&& ~~~d) ||| (p &&& d))

/-! ## Interrupt output and reset -/

/-- R172, R32, R40: `CHKIRQ` is true exactly when some flag of the VIA is set whose enable is set, `IRQLINE` exactly when
that holds of one of the two VIAs; neither has a side effect. -/
def Obligations.InterruptQueries : Prop :=
  ∀ (s : State), ∃ (q : ViaId → Bool) (l : Bool),
    (∀ k, AnswersOnly (.chkirq k) s (.level (q k)) ∧
      (q k = true ↔ ∃ n, n < 7 ∧ bit (s.via k).ifr n = true ∧ bit (s.via k).ie n = true)) ∧
    AnswersOnly .irqline s (.level l) ∧
    (l = true ↔ ∃ k n, n < 7 ∧ bit (s.via k).ifr n = true ∧ bit (s.via k).ie n = true) ∧
    (∀ k rest, decode k (0x8000#16 :: rest) = .ok (.chkirq k, rest)) ∧
    (∀ k rest, decode k (0x8100#16 :: rest) = .ok (.irqline, rest))

/-- R290: `RESET` clears every register, counter, flag, enable and control-line state of `via[k]`, and nothing else of the
block; IFR then reads 0x00, no interrupt is asked for, and the drive connector drives nothing. -/
def Obligations.ViaReset : Prop :=
  ∀ (k : ViaId) (s : State),
    ChangesVia (.reset k) s k (fun v => v =
      { pb := 0, pa := 0, ddrb := 0, ddra := 0, t1ll := 0, t1lh := 0, t1c := 0, acr := 0, pcr := 0,
        ifr := 0, ie := 0, ca1 := false, ca2 := false, cb1 := false, cb2 := false }) ∧
    (∃ t, runInstrs [.reset k, .rdIfr k] s = .next t ∧ t.io.ret = .byte 0x00#8) ∧
    (∃ t, runInstrs [.reset k, .chkirq k] s = .next t ∧ t.io.ret = .level false) ∧
    (∃ t, exec (.reset .via0) s = .next t ∧ (∀ l, (driveRead t.via0).line l = .floating) ∧
      (driveRead t.via0).dio = 0x00#8) ∧
    (∀ rest, decode k (0x9000#16 :: rest) = .ok (.reset k, rest))

/-- R47: the state at process start, field by field. -/
def Obligations.StateAtProcessStart : Prop :=
  (∀ k, State.reset.via k =
    { pb := 0, pa := 0, ddrb := 0, ddra := 0, t1ll := 0, t1lh := 0, t1c := 0, acr := 0, pcr := 0,
      ifr := 0, ie := 0, ca1 := false, ca2 := false, cb1 := false, cb2 := false }) ∧
  (∀ l, State.reset.host.out.line l = .floating) ∧ State.reset.host.out.dio = 0xFF#8 ∧
  (∀ l, State.reset.host.inp.line l = .negated) ∧ State.reset.host.inp.dio = 0xFF#8 ∧
  State.reset.bm =
    { seq := .idle, step := 0, retries := 0, prim := 0x00#8, sec := 0xFF#8, round := .primary,
      phase := .talk, byte := 0x00#8, bytes := [], result := .none, synced := true } ∧
  State.reset.loop = .cpuStep

/-! ## The signal algebra and the cable -/

/-- R100 to R104: the conversions, the merge of two signals and of two bus states, and the merge's laws. -/
def Obligations.WiredOrMergeLaws : Prop :=
  (∀ x, toTtl x = true ↔ x ≠ .asserted) ∧
  (∀ t, toTtl (fromTtl t) = t ∧ fromTtl t ≠ .floating) ∧
  (∀ x y, mergeSignal x y = if x = .asserted ∨ y = .asserted then .asserted else .negated) ∧
  (∀ x, mergeSignal x .floating = mergeSignal x .negated) ∧
  (∀ x y, mergeSignal x y = mergeSignal y x) ∧
  (∀ x y z, mergeSignal x (mergeSignal y z) = mergeSignal (mergeSignal x y) z) ∧
  (∀ a b l, (mergeBus a b).line l = mergeSignal (a.line l) (b.line l)) ∧
  (∀ a b n, n < 8 → bit (mergeBus a b).dio n = (bit a.dio n || bit b.dio n)) ∧
  (∀ a b, mergeBus a b = mergeBus b a) ∧
  (∀ a b c, mergeBus a (mergeBus b c) = mergeBus (mergeBus a b) c) ∧
  mergeSignal .floating .floating ≠ .floating

/-- R190 to R193, R211, R212: what a Sync puts into the host's incoming latch. A line is ASSERTED exactly when the host
asserts it or the drive does: NRFD and NDAC by the gate or by a low output bit, EOI and DAV by a low output bit, the other
four never; DIO is natural and merged by OR in bus form. -/
def Obligations.SyncFillsTheIncomingLatch : Prop :=
  ∀ (s : State), ∃ t, exec .sync s = .next t ∧ t.host.inp.NoneFloating ∧
    (t.host.inp.nrfd = .asserted ↔ s.host.out.nrfd = .asserted ∨
      (bit s.via0.pb 0 && bit s.via0.ddrb 0) ≠ s.via0.ca1 ∨ (bit s.via0.ddrb 1 = true ∧ bit s.via0.pb 1 = false)) ∧
    (t.host.inp.ndac = .asserted ↔ s.host.out.ndac = .asserted ∨
      (bit s.via0.pb 0 && bit s.via0.ddrb 0) ≠ s.via0.ca1 ∨ (bit s.via0.ddrb 2 = true ∧ bit s.via0.pb 2 = false)) ∧
    (t.host.inp.eoi = .asserted ↔ s.host.out.eoi = .asserted ∨ (bit s.via0.ddrb 3 = true ∧ bit s.via0.pb 3 = false)) ∧
    (t.host.inp.dav = .asserted ↔ s.host.out.dav = .asserted ∨ (bit s.via0.ddrb 6 = true ∧ bit s.via0.pb 6 = false)) ∧
    (∀ l ∈ [BusLine.atn, .srq, .ren, .ifc], t.host.inp.line l = .asserted ↔ s.host.out.line l = .asserted) ∧
    (∀ n, n < 8 → bit t.host.inp.dio n = (bit s.host.out.dio n && !(bit s.via0.pa n && bit s.via0.ddra n))) ∧
    t.host.out = s.host.out ∧ t.bm = { s.bm with synced := true } ∧ t.via1 = s.via1 ∧ t.loop = s.loop ∧ t.io = s.io

/-- R194 to R198: what a Sync delivers to `via[0]`, in terms of the merged bus state it leaves in the incoming latch: input
bits 7, 1, 2, 3 and 6 of Port B, the CA1 and CA2 levels with their edges, and the complement of the natural DIO byte on the
input bits of Port A; nothing else of the VIA moves. That CA2's mode and polarity are PCR bits 3 and 2 is the spec's own
choice, not the source's (R29, R120, R163; log entry 13, PRESUMED). -/
def Obligations.SyncDeliversToTheDrive : Prop :=
  ∀ (s : State), ∃ t, exec .sync s = .next t ∧
    (∀ n, n < 8 → bit t.via0.pb n = if bit s.via0.ddrb n then bit s.via0.pb n
      else if n = 7 then t.host.inp.atn == .asserted
      else if n = 1 then t.host.inp.nrfd != .asserted
      else if n = 2 then t.host.inp.ndac != .asserted
      else if n = 3 then t.host.inp.eoi != .asserted
      else if n = 6 then t.host.inp.dav != .asserted
      else bit s.via0.pb n) ∧
    (∀ n, n < 8 → bit t.via0.pa n = if bit s.via0.ddra n then bit s.via0.pa n else !bit t.host.inp.dio n) ∧
    t.via0.ca1 = (t.host.inp.atn == .asserted) ∧
    t.via0.ca2 = (if bit s.via0.pcr 3 then s.via0.ca2 else t.host.inp.nrfd != .asserted) ∧
    (∀ n, n < 7 → bit t.via0.ifr n = (bit s.via0.ifr n ||
      (n == 1 && t.via0.ca1 != s.via0.ca1 && t.via0.ca1 == bit s.via0.pcr 0) ||
      (n == 0 && t.via0.ca2 != s.via0.ca2 && t.via0.ca2 == bit s.via0.pcr 2))) ∧
    { t.via0 with pb := s.via0.pb, pa := s.via0.pa, ca1 := s.via0.ca1, ca2 := s.via0.ca2, ifr := s.via0.ifr } = s.via0 ∧
    (∀ k rest, decode k (0xA000#16 :: rest) = .ok (.sync, rest))

/-- R200: with ATNA and CA1 both false and no other driver of NRFD and NDAC, the Sync that carries the host's ATN leaves them
NEGATED, and the next one forces both ASSERTED. -/
def Obligations.GateAnswersOneSyncLate : Prop :=
  ∀ (s : State), s.host.out.atn = .asserted → s.host.out.nrfd ≠ .asserted → s.host.out.ndac ≠ .asserted →
    s.via0.ca1 = false → (bit s.via0.pb 0 && bit s.via0.ddrb 0) = false →
    (bit s.via0.ddrb 1 = true → bit s.via0.pb 1 = true) → (bit s.via0.ddrb 2 = true → bit s.via0.pb 2 = true) →
    ∃ t u, exec .sync s = .next t ∧ exec .sync t = .next u ∧
      t.host.inp.nrfd = .negated ∧ t.host.inp.ndac = .negated ∧
      u.host.inp.nrfd = .asserted ∧ u.host.inp.ndac = .asserted

/-- R294: the first Sync after a reset, with nobody asserting NRFD or ATN, raises the stored CA2 level of an input-mode line
and sets its flag exactly when PCR selected positive polarity; CA1 does not move. R294 speaks of input mode; that an output-mode
CA2 stays false is R163's. That its mode and polarity are PCR bits 3 and 2 is the spec's own choice, not the source's (R29,
R120; log entry 13, PRESUMED). -/
def Obligations.FirstSyncAfterReset : Prop :=
  ∀ (s : State) (p : Byte), s.host.out.nrfd ≠ .asserted → s.host.out.atn ≠ .asserted →
    ∃ t, runInstrs [.reset .via0, .wrPcr .via0 p, .sync] s = .next t ∧
      t.via0.ca2 = !bit p 3 ∧ bit t.via0.ifr 0 = (!bit p 3 && bit p 2) ∧
      t.via0.ca1 = false ∧ bit t.via0.ifr 1 = false

/-! ## The host connector -/

/-- R213 to R215: the host-connector writes change the outgoing record as they say and clear `bm.synced`; nothing else. -/
def Obligations.HostConnectorWrites : Prop :=
  ∀ (s : State) (b : Byte),
    (∀ (c : Word) (sig : Signal), (c, sig) ∈ [(0#16, Signal.asserted), (1#16, .negated), (2#16, .floating)] →
      ∀ row ∈
        [(0xB000#16, Instr.hsetDav sig, { s.host.out with dav := sig }), (0xB100#16, .hsetEoi sig, { s.host.out with eoi := sig }),
         (0xB200#16, .hsetNdac sig, { s.host.out with ndac := sig }), (0xB300#16, .hsetNrfd sig, { s.host.out with nrfd := sig }),
         (0xB400#16, .hsetSrq sig, { s.host.out with srq := sig }), (0xB500#16, .hsetAtn sig, { s.host.out with atn := sig }),
         (0xB600#16, .hsetRen sig, { s.host.out with ren := sig }), (0xB700#16, .hsetIfc sig, { s.host.out with ifc := sig })],
        exec row.2.1 s = .next { s with host := { s.host with out := row.2.2 }, bm := { s.bm with synced := false } } ∧
        ∀ k rest, decode k ((row.1 + c) :: rest) = .ok (row.2.1, rest)) ∧
    exec (.hdio b) s = .next { s with host := { s.host with out := { s.host.out with dio := b } },
                                      bm := { s.bm with synced := false } } ∧
    (∀ k rest, decode k ((0xB800#16 + b.setWidth 16) :: rest) = .ok (.hdio b, rest)) ∧
    (∃ o, exec .hreset s = .next { s with host := { s.host with out := o }, bm := { s.bm with synced := false } } ∧
      (∀ l, o.line l = .floating) ∧ o.dio = 0xFF#8) ∧
    (∀ k rest, decode k (0xB900#16 :: rest) = .ok (.hreset, rest))

/-- R212: no transaction but `SYNC`, and no turn of the bus master, writes the host's incoming latch. -/
def Obligations.IncomingLatchWrittenBySyncAlone : Prop :=
  (∀ (i : Instr) (s t : State), exec i s = .next t → i ≠ .sync → t.host.inp = s.host.inp) ∧
  (∀ (s : State), ∃ t, turn .host s = .next t ∧ t.host.inp = s.host.inp)

/-! ## The bus master -/

/-- R219, R224, R226, R228: an idle bus master starts each of the three sequences; a busy one refuses all three. That
`bm.step` is then 1, the number of the step to be taken next, is the model's reading (log entry 8, DEDUCED). R226's unnumbered
line sets `seq`, `phase` and `bytes` alone and then runs the command's numbered steps: that `INPUT` also sets `prim`, `sec`,
`round` and `result`, as the command's own unnumbered line does, is the model's reading too (log entry 9, DEDUCED). -/
def Obligations.SequencesStartOnlyWhenIdle : Prop :=
  ∀ (s : State) (p sec : Byte),
    (s.bm.seq = .idle →
      exec (.cmd p sec) s = .next { s with bm := { s.bm with
        seq := .cmd, prim := p, sec := sec, round := .primary, result := .none, step := 1 } } ∧
      exec .readbyte s = .next { s with bm := { s.bm with seq := .readByte, result := .none, step := 1 } } ∧
      exec (.input p sec) s = .next { s with bm := { s.bm with
        seq := .input, phase := .talk, bytes := [], prim := p, sec := sec, round := .primary, result := .none,
        step := 1 } }) ∧
    (s.bm.seq ≠ .idle → ∀ i ∈ [Instr.cmd p sec, .readbyte, .input p sec], exec i s = .refused .sequenceRunning)

/-- R44: an idle bus master changes no state. R217: at a poll, with no Sync since the last write of `host.out`, it takes no
step, and the wait costs no retry. That its turn is then a step that changes nothing is the model's (log entry 20, DEDUCED). -/
def Obligations.NoHostStepWhileIdleOrUnsynced : Prop :=
  ∀ (s : State),
    (s.bm.seq = .idle → turn .host s = .next s) ∧
    (s.bm.pollTag ≠ none → s.bm.synced = false → turn .host s = .next s)

/-- R216, R218, R223, R227: one sample of a poll. It succeeds and goes on with retries 0; or it fails and counts; or, the
`POLL_RETRIES`-th failure in a row (a poll is known by its step number, log entry 8), it ends the sequence with the timeout, negating ATN alone in a command and in the Talk
and Untalk phases of an input sequence, and changing no outgoing line in a byte read. -/
def Obligations.PollSample : Prop :=
  ∀ (s : State) (tag : PollTag), s.bm.pollTag = some tag → s.bm.synced = true →
    (tag.Holds s.host.inp → turn .host s = .next { s with bm := { s.bm with retries := 0, step := s.bm.step + 1 } }) ∧
    (¬tag.Holds s.host.inp → s.bm.retries + 1 ≠ 500 →
      turn .host s = .next { s with bm := { s.bm with retries := s.bm.retries + 1 } }) ∧
    (¬tag.Holds s.host.inp → s.bm.retries + 1 = 500 → s.bm.inCommand = true →
      turn .host s = .next { s with
        host := { s.host with out := { s.host.out with atn := .negated } }
        bm := { s.bm with result := .timeout s.bm.seq tag s.host.inp, seq := .idle, step := 0, retries := 0,
                          synced := false } }) ∧
    (¬tag.Holds s.host.inp → s.bm.retries + 1 = 500 → s.bm.inCommand = false →
      turn .host s = .next { s with
        bm := { s.bm with result := .timeout s.bm.seq tag s.host.inp, seq := .idle, step := 0, retries := 0 } })

/-- R216, R218, R223, R227, 95 scenario 6 (a poll is known by its step number, log entry 8): a poll entered with retries 0
whose condition stays false fails its first 499 samples with no change but the count, and its 500th ends the sequence with the
timeout: in a command, and in the Talk and Untalk phases of an input sequence, ATN is negated and `bm.synced` cleared; in a byte
read neither. Everything else stands, the bytes read among it. -/
def Obligations.PollTimesOutAfterItsRetries : Prop :=
  ∀ (s : State) (tag : PollTag) (n : Nat), s.bm.pollTag = some tag → s.bm.synced = true → s.bm.retries = 0 →
    ¬tag.Holds s.host.inp →
    (n < 500 → hostTurns n s = .next { s with bm := { s.bm with retries := n } }) ∧
    (n = 500 → s.bm.inCommand = true → hostTurns n s = .next { s with
      host := { s.host with out := { s.host.out with atn := .negated } }
      bm := { s.bm with result := .timeout s.bm.seq tag s.host.inp, seq := .idle, step := 0, retries := 0,
                        synced := false } }) ∧
    (n = 500 → s.bm.inCommand = false → hostTurns n s = .next { s with
      bm := { s.bm with result := .timeout s.bm.seq tag s.host.inp, seq := .idle, step := 0, retries := 0 } })

/-- R219, R220, R221, with the steps numbered as log entry 8 says: the command's steps, one host turn each (a poll's success included; its failure is `PollSample`). -/
def Obligations.CommandSteps : Prop :=
  ∀ (s : State), s.bm.seq = .cmd →
    (s.bm.step = 1 → ∃ o : BusState, (∀ l, o.line l = .floating) ∧ o.dio = 0xFF#8 ∧
      turn .host s = .next { s with host := { s.host with out := o }, bm := { s.bm with synced := false, step := 2 } }) ∧
    (s.bm.step = 2 → turn .host s = .next { s with
      host := { s.host with out := { s.host.out with atn := .asserted } }, bm := { s.bm with synced := false, step := 3 } }) ∧
    (s.bm.step = 3 → s.bm.synced = true → s.host.inp.ndac = .asserted →
      turn .host s = .next { s with bm := { s.bm with retries := 0, step := 4 } }) ∧
    (s.bm.step = 4 → turn .host s = .next { s with
      host := { s.host with out := { s.host.out with dio := s.bm.prim ||| 0x40#8 } },
      bm := { s.bm with synced := false, step := 5 } }) ∧
    (s.bm.step = 5 → s.bm.synced = true → s.host.inp.ndac = .asserted → s.host.inp.nrfd = .negated →
      turn .host s = .next { s with bm := { s.bm with retries := 0, step := 6 } }) ∧
    (s.bm.step = 6 → turn .host s = .next { s with
      host := { s.host with out := { s.host.out with dav := .asserted } }, bm := { s.bm with synced := false, step := 7 } }) ∧
    (s.bm.step = 7 → s.bm.synced = true → s.host.inp.nrfd = .asserted →
      turn .host s = .next { s with bm := { s.bm with retries := 0, step := 8 } }) ∧
    (s.bm.step = 8 → s.bm.synced = true → s.host.inp.ndac = .negated →
      turn .host s = .next { s with bm := { s.bm with retries := 0, step := 9 } }) ∧
    (s.bm.step = 9 → turn .host s = .next { s with
      host := { s.host with out := { s.host.out with dav := .negated, dio := 0xFF#8 } },
      bm := { s.bm with synced := false, step := 10 } }) ∧
    (s.bm.step = 10 → s.bm.synced = true → s.host.inp.ndac = .asserted →
      turn .host s = .next { s with bm := { s.bm with retries := 0, step := 11 } }) ∧
    (s.bm.step = 11 → s.bm.round = .primary → s.bm.sec ≠ 0xFF#8 → turn .host s = .next { s with
      host := { s.host with out := { s.host.out with dio := s.bm.sec ||| 0x60#8 } },
      bm := { s.bm with synced := false, round := .secondary, step := 5 } }) ∧
    (s.bm.step = 11 → s.bm.round = .secondary ∨ s.bm.sec = 0xFF#8 →
      turn .host s = .next { s with bm := { s.bm with step := 12 } }) ∧
    (s.bm.step = 12 → turn .host s = .next { s with
      host := { s.host with out := { s.host.out with atn := .negated, nrfd := .asserted, ndac := .asserted } },
      bm := { s.bm with synced := false, result := .ok, seq := .idle, step := 0 } })

/-- R224, R225, with the steps numbered as log entry 8 says: the byte read's steps, one host turn each (a poll's success included; its failure is `PollSample`). -/
def Obligations.ByteReadSteps : Prop :=
  ∀ (s : State), s.bm.seq = .readByte →
    (s.bm.step = 1 → turn .host s = .next { s with
      host := { s.host with out := { s.host.out with dav := .floating, nrfd := .asserted, ndac := .asserted } },
      bm := { s.bm with synced := false, step := 2 } }) ∧
    (s.bm.step = 2 → turn .host s = .next { s with
      host := { s.host with out := { s.host.out with nrfd := .negated } }, bm := { s.bm with synced := false, step := 3 } }) ∧
    (s.bm.step = 3 → s.bm.synced = true → s.host.inp.dav = .asserted →
      turn .host s = .next { s with bm := { s.bm with retries := 0, step := 4 } }) ∧
    (s.bm.step = 4 → turn .host s = .next { s with
      host := { s.host with out := { s.host.out with nrfd := .asserted } }, bm := { s.bm with synced := false, step := 5 } }) ∧
    (s.bm.step = 5 → turn .host s = .next { s with bm := { s.bm with byte := s.host.inp.dio, step := 6 } }) ∧
    (s.bm.step = 6 → turn .host s = .next { s with bm := { s.bm with
      byte := if s.host.inp.eoi = .asserted then 0x13#8 else s.bm.byte, step := 7 } }) ∧
    (s.bm.step = 7 → turn .host s = .next { s with
      host := { s.host with out := { s.host.out with ndac := .negated } }, bm := { s.bm with synced := false, step := 8 } }) ∧
    (s.bm.step = 8 → s.bm.synced = true → s.host.inp.dav = .negated →
      turn .host s = .next { s with bm := { s.bm with retries := 0, step := 9 } }) ∧
    (s.bm.step = 9 → turn .host s = .next { s with
      host := { s.host with out := { s.host.out with ndac := .asserted, nrfd := .asserted } },
      bm := { s.bm with synced := false, result := .okByte s.bm.byte, seq := .idle, step := 0 } })

/-- R226, as log entries 8 and 9 read it: inside an input sequence the command's and the byte read's steps run as they do alone, `bm.seq` staying Input; the
Talk command's end starts the reads; each byte read is appended, and the terminator or the 80th byte starts UNTALK, whose
end is the sequence's. -/
def Obligations.InputSequenceSteps : Prop :=
  ∀ (s : State), s.bm.seq = .input →
    (∀ t, s.bm.phase ≠ .read → turn .host { s with bm := { s.bm with seq := .cmd } } = .next t → t.bm.seq = .cmd →
      turn .host s = .next { t with bm := { t.bm with seq := .input } }) ∧
    (∀ t, s.bm.phase = .read → turn .host { s with bm := { s.bm with seq := .readByte } } = .next t →
      t.bm.seq = .readByte → turn .host s = .next { t with bm := { t.bm with seq := .input } }) ∧
    (s.bm.phase = .talk → s.bm.step = 12 → turn .host s = .next { s with
      host := { s.host with out := { s.host.out with atn := .negated, nrfd := .asserted, ndac := .asserted } },
      bm := { s.bm with synced := false, phase := .read, result := .none, step := 1 } }) ∧
    (s.bm.phase = .read → s.bm.step = 9 → s.bm.byte ≠ 0x13#8 → s.bm.bytes.length ≠ 79 → turn .host s = .next { s with
      host := { s.host with out := { s.host.out with ndac := .asserted, nrfd := .asserted } },
      bm := { s.bm with synced := false, bytes := s.bm.bytes ++ [s.bm.byte], result := .none, step := 1 } }) ∧
    (s.bm.phase = .read → s.bm.step = 9 → s.bm.byte = 0x13#8 ∨ s.bm.bytes.length = 79 → turn .host s = .next { s with
      host := { s.host with out := { s.host.out with ndac := .asserted, nrfd := .asserted } },
      bm := { s.bm with synced := false, bytes := s.bm.bytes ++ [s.bm.byte], phase := .untalk, prim := 0x5F#8,
                        sec := 0xFF#8, round := .primary, result := .none, step := 1 } }) ∧
    (s.bm.phase = .untalk → s.bm.step = 12 → turn .host s = .next { s with
      host := { s.host with out := { s.host.out with atn := .negated, nrfd := .asserted, ndac := .asserted } },
      bm := { s.bm with synced := false, result := .okBytes s.bm.bytes, seq := .idle, step := 0 } })

/-- R229: the bus master's turn is fixed by `bm` and `host` alone, and changes `bm` and `host.out` alone: two machines that
agree on them take the same step, whatever their VIAs and drive loops hold. -/
def Obligations.HostTurnSeesOnlyItsOwnState : Prop :=
  ∀ (s u : State), s.bm = u.bm → s.host = u.host → ∃ (b : BusMaster) (o : BusState),
    turn .host s = .next { s with bm := b, host := { s.host with out := o } } ∧
    turn .host u = .next { u with bm := b, host := { u.host with out := o } }

/-- R222, with the steps numbered as log entry 8 says: while a command, standing alone or inside an input sequence, is between
its steps 2 and 12 with NRFD and NDAC released, every turn of either agent keeps it so or ends the command, and a Sync hands
the host the drive connector's NRFD and NDAC, merged with FLOATING. So, in any run of the two agents' turns from a command's
first step on, a poll of a command that may sample reads the latch that a Sync filled while the host had both released: the
levels are those of the drive connector at that Sync. (A harness's `HSET` is no turn of either agent.) -/
def Obligations.CommandLeavesHandshakeToTheDrive : Prop :=
  (∀ (s : State), s.bm.inCommand = true → s.host.out.nrfd = .floating → s.host.out.ndac = .floating →
    2 ≤ s.bm.step → s.bm.step ≤ 12 →
    (∃ t, turn .host s = .next t ∧ (t.bm.inCommand = false ∨ (t.bm.seq = s.bm.seq ∧ t.bm.phase = s.bm.phase ∧
      t.host.out.nrfd = .floating ∧ t.host.out.ndac = .floating ∧ 2 ≤ t.bm.step ∧ t.bm.step ≤ 12))) ∧
    (∀ e, ∃ t, turn (.drive e) s = .next t ∧ t.bm = { s.bm with synced := t.bm.synced } ∧ t.host.out = s.host.out) ∧
    (∃ t, exec .sync s = .next t ∧ t.bm.synced = true ∧
      t.host.inp.nrfd = mergeSignal .floating (driveRead s.via0).nrfd ∧
      t.host.inp.ndac = mergeSignal .floating (driveRead s.via0).ndac)) ∧
  (∀ (s t : State) (turns : List Input), s.bm.inCommand = true → s.bm.step = 1 → (∀ i ∈ turns, i.IsAgentTurn) →
    runTurns turns s = .next t → t.bm.inCommand = true → t.bm.pollTag ≠ none → t.bm.synced = true →
    ∃ (before after : List Input) (e : CpuEvent) (u v : State), turns = before ++ .drive e :: after ∧
      runTurns before s = .next u ∧ u.loop = .sync ∧ u.bm.inCommand = true ∧
      u.host.out.nrfd = .floating ∧ u.host.out.ndac = .floating ∧
      turn (.drive e) u = .next v ∧ t.host.inp = v.host.inp ∧
      t.host.inp.nrfd = mergeSignal .floating (driveRead u.via0).nrfd ∧
      t.host.inp.ndac = mergeSignal .floating (driveRead u.via0).ndac)

/-! ## The drive loop -/

/-- R240, R242, R244, R245: the drive loop's phases in their order, one turn each (the CPU's events and the `cpuInterrupt`
port are the model's, log entries 2 and 6): the CPU step ends in Tick or Halted; Tick ticks both VIAs;
Sync propagates the bus; IrqCheck offers the aggregated line to the CPU; Halted has no step, and the model's turn there changes
nothing (log entries 16 and 20, DEDUCED). -/
def Obligations.DriveLoopCycle : Prop :=
  ∀ (s : State) (e : CpuEvent),
    (s.loop = .cpuStep → turn (.drive .done) s = .next { s with loop := .tick }) ∧
    (s.loop = .cpuStep → turn (.drive .fatal) s = .next { s with loop := .halted }) ∧
    (s.loop = .tick → ∃ t, runInstrs [.tick .via0, .tick .via1] s = .next t ∧
      turn (.drive e) s = .next { t with loop := .sync }) ∧
    (s.loop = .sync → ∃ t, exec .sync s = .next t ∧ turn (.drive e) s = .next { t with loop := .irqCheck }) ∧
    (s.loop = .irqCheck → ∃ l, AnswersOnly .irqline s (.level l) ∧
      turn (.drive e) s = .next { s with loop := .cpuStep, io := { s.io with cpuInterrupt := l } }) ∧
    (s.loop = .halted → turn (.drive e) s = .next s)

/-- R60, R68 (the bases are free values, log entry 5; an access is a CPU event, log entry 6): the two windows meet the constraint of R68, and inside a CPU step an access to offset `n` of a VIA's window is
the CPU read or write of that register, while an access outside both windows changes nothing. -/
def Obligations.CpuAccessesReachTheirRegister : Prop :=
  Config.basesLegal Config.viaBase0 Config.viaBase1 = true ∧
  ∀ (s : State) (n : Nat) (d : Byte), s.loop = .cpuStep → n < 16 →
    turn (.drive (.read (Config.viaBase0 + n))) s = exec (rdInstr .via0 (regOf n)) s ∧
    turn (.drive (.read (Config.viaBase1 + n))) s = exec (rdInstr .via1 (regOf n)) s ∧
    turn (.drive (.write (Config.viaBase0 + n) d)) s = exec (wrInstr .via0 d (regOf n)) s ∧
    turn (.drive (.write (Config.viaBase1 + n) d)) s = exec (wrInstr .via1 d (regOf n)) s ∧
    (∀ a, (∀ m, m < 16 → a ≠ Config.viaBase0 + m ∧ a ≠ Config.viaBase1 + m) →
      turn (.drive (.read a)) s = .next s ∧ turn (.drive (.write a d)) s = .next s)

/-- R245, over the model's turns (log entry 7): no step of the machine leaves Halted, and only a fatal CPU error enters it. -/
def Obligations.HaltedIsFinal : Prop :=
  ∀ (s t : State), step s = .next t →
    (s.loop = .halted → t.loop = .halted) ∧
    (s.loop ≠ .halted → t.loop = .halted → s.loop = .cpuStep ∧
      ((∃ q, s.io.inputs = .drive .fatal :: q) ∨
        (s.io.inputs = [] ∧ Config.turn s.io.turns = .driveLoop ∧ Config.cpuEvent s.io.turns = .fatal)))

/-- A property of the model's turns (log entries 1 and 7), after R69, R246 and R260: a turn of either agent, queued or the
machine's own, always has a next state. Where the agent has a step, it is that step's; for an idle bus master, an unsynced poll
and a halted drive loop the spec has no step at all (R228, R245), and that the turn then has a next state, one that changes
nothing, is the model's choice (log entries 16 and 20, DEDUCED). -/
def Obligations.AgentTurnsNeverStop : Prop :=
  ∀ (s : State), (s.io.inputs = [] ∨ (∃ e q, s.io.inputs = .drive e :: q) ∨ (∃ q, s.io.inputs = .host :: q)) →
    ∃ t, step s = .next t ∧ t.io.inputs = s.io.inputs.tail

/-- R199: without a harness's `GIN` or `CTRLIN`, that is in the turns of the two agents, the unconnected lines keep their
levels and their flags are never raised: every control line of `via[1]`, and CB1 and CB2 of `via[0]`. -/
def Obligations.UnconnectedLinesNeverFire : Prop :=
  ∀ (s t : State) (i : Input), ((∃ e, i = .drive e) ∨ i = .host) → turn i s = .next t →
    t.via1.ca1 = s.via1.ca1 ∧ t.via1.ca2 = s.via1.ca2 ∧ t.via1.cb1 = s.via1.cb1 ∧ t.via1.cb2 = s.via1.cb2 ∧
    t.via0.cb1 = s.via0.cb1 ∧ t.via0.cb2 = s.via0.cb2 ∧
    (∀ n ∈ [0, 1, 3, 4], bit t.via1.ifr n = true → bit s.via1.ifr n = true) ∧
    (∀ n ∈ [3, 4], bit t.via0.ifr n = true → bit s.via0.ifr n = true)

/-! ## Whole-machine rules -/

/-- R266, R268: a flag of a VIA is raised by the delivery of its line's edge, by Sync (CA1 and CA2 of `via[0]`) or by the tick
(T1), and by no other transaction. -/
def Obligations.FlagsRaisedOnlyByTheirSource : Prop :=
  ∀ (i : Instr) (s t : State) (k : ViaId) (n : Nat), exec i s = .next t →
    bit (s.via k).ifr n = false → bit (t.via k).ifr n = true → Raises i k n

/-- R266, R268: a set flag is sticky: it is lowered by its port's access (the Cx2 flag only in input mode), by a write of 1 to
its IFR bit (not T1), by the three timer accesses (T1), or by a reset of its VIA, and by no other transaction. -/
def Obligations.FlagsLoweredOnlyByTheirClears : Prop :=
  ∀ (i : Instr) (s t : State) (k : ViaId) (n : Nat), exec i s = .next t →
    bit (s.via k).ifr n = true → bit (t.via k).ifr n = false → Lowers i k (s.via k) n

/-- R33, R143, R303: the stored control-line levels move by a delivery (`CTRLIN`, `SYNC` on `via[0]`) or a reset alone. -/
def Obligations.LevelsMoveOnlyByDelivery : Prop :=
  ∀ (i : Instr) (s t : State) (k : ViaId) (l : CtrlLine), exec i s = .next t →
    (t.via k).level l ≠ (s.via k).level l →
      i = .reset k ∨ (k = .via0 ∧ i = .sync ∧ (l = .ca1 ∨ l = .ca2)) ∨
      ∃ b, (l = .ca1 ∧ i = .ctrlinCa1 k b) ∨ (l = .ca2 ∧ i = .ctrlinCa2 k b) ∨
        (l = .cb1 ∧ i = .ctrlinCb1 k b) ∨ (l = .cb2 ∧ i = .ctrlinCb2 k b)

/-- R30, R36, R43; `Legal` is the model's invariant (log entry 19). A legal state (IFR bits 2 and 5 clear, no FLOATING line in the incoming latch, the bus master's control state one that
its sequences reach) stays legal over every step, whatever turn is taken. -/
def Obligations.StepKeepsLegalStates : Prop :=
  ∀ (s t : State), s.Legal → step s = .next t → t.Legal

/-- The state at process start is legal (log entry 19). -/
def Obligations.ProcessStartIsLegal : Prop := State.reset.Legal

/-! ## The textual interfaces -/

/-- R91, R92 (the line as a turn and the `console` port are the model's, log entries 1 and 2), on sixteen fixed lines: each
`via <reg>` line issues the side-effect-free read of the register it names on `via[0]`, `open` and `input`, with and without a
secondary, issue their sequence, with none where none is given, and `exit` ends the process. -/
def Obligations.MonitorLinesIssueTheirTransaction : Prop :=
  ∀ (s : State),
    (∀ row ∈ [("via a", Instr.peekPa .via0), ("via adir", .peekDdra .via0), ("via b", .peekPb .via0),
        ("via bdir", .peekDdrb .via0), ("via t1lo", .peekT1lo .via0), ("via t1hi", .peekT1hi .via0),
        ("via ifr", .peekIfr .via0), ("via ie", .peekIe .via0), ("via acr", .peekAcr .via0),
        ("via pcr", .peekPcr .via0), ("via irq", .chkirq .via0), ("open 8", .cmd 0x08#8 0xFF#8),
        ("open 08 6F", .cmd 0x08#8 0x6F#8), ("input 8", .input 0x08#8 0xFF#8), ("input 08 6f", .input 0x08#8 0x6F#8)],
      turn (.line row.1.toList) s = exec row.2 { s with io := { s.io with console := .issued } }) ∧
    turn (.line "exit".toList) s = .fault .processExit

/-- R90, by the writes its expansions make (R138, R139, R144, R145, R160): what each pseudo-operation on a VIA comes to.
`LDT1` sets latches and counter and clears T1; `IESET` and `IECLR` set and clear enables; `IFRCLR` clears the CA and CB flags;
`TICKS n` counts down by `n`, or, in continuous mode from the underflow on, down from the latches again and again, and sets T1
if the counter reaches zero on the way. Nothing else of the block changes. -/
def Obligations.PseudoOperations : Prop :=
  ∀ (k : ViaId) (s : State) (w : Word) (m : Byte) (n : Nat),
    RunChangesVia (Pseudo.ldt1 k w).expand s k (fun v =>
      v.t1c = w ∧ v.t1lh.toNat * 256 + v.t1ll.toNat = w.toNat ∧ FlagsLowered (s.via k) v (fun j => j == 6) ∧
      { v with t1c := (s.via k).t1c, t1ll := (s.via k).t1ll, t1lh := (s.via k).t1lh, ifr := (s.via k).ifr } = s.via k) ∧
    RunChangesVia (Pseudo.ieset k m).expand s k (fun v => { v with ie := (s.via k).ie } = s.via k ∧
      ∀ j, j < 7 → bit v.ie j = (bit (s.via k).ie j || bit m j)) ∧
    RunChangesVia (Pseudo.ieclr k m).expand s k (fun v => { v with ie := (s.via k).ie } = s.via k ∧
      ∀ j, j < 7 → bit v.ie j = (bit (s.via k).ie j && !bit m j)) ∧
    RunChangesVia (Pseudo.ifrclr k m).expand s k (fun v => SameButFlags (s.via k) v ∧
      FlagsLowered (s.via k) v (fun j => (j == 0 || j == 1 || j == 3 || j == 4) && bit m j)) ∧
    RunChangesVia (Pseudo.ticks k n).expand s k (fun v =>
      { v with t1c := (s.via k).t1c, ifr := (s.via k).ifr } = s.via k ∧
      v.t1c.toNat = (if bit (s.via k).acr 6 = true ∧ 0 < (s.via k).t1c.toNat ∧ (s.via k).t1c.toNat ≤ n
        then (s.via k).t1lh.toNat * 256 + (s.via k).t1ll.toNat -
          (n - (s.via k).t1c.toNat) % ((s.via k).t1lh.toNat * 256 + (s.via k).t1ll.toNat)
        else (s.via k).t1c.toNat - n) ∧
      ∀ j, j < 7 → bit v.ifr j = (bit (s.via k).ifr j ||
        (j == 6 && decide (0 < (s.via k).t1c.toNat ∧ (s.via k).t1c.toNat ≤ n))))
end

