-- ==== Sys2Proof/Laws/State.lean ====
section
/-! SUPPORT. One lemma per field per update of the state, so that no proof unfolds a record update. -/

namespace Sys2Proof.Machine

@[simp] theorem State.via_via0 (s : State) : s.via .via0 = s.via0 := rfl
@[simp] theorem State.via_via1 (s : State) : s.via .via1 = s.via1 := rfl
@[simp] theorem ViaId.other_via0 : ViaId.via0.other = .via1 := rfl
@[simp] theorem ViaId.other_via1 : ViaId.via1.other = .via0 := rfl
@[simp] theorem State.setVia_via0_via0 (s : State) (v : Via) : (s.setVia v .via0).via0 = v := rfl
@[simp] theorem State.setVia_via0_via1 (s : State) (v : Via) : (s.setVia v .via0).via1 = s.via1 := rfl
@[simp] theorem State.setVia_via1_via0 (s : State) (v : Via) : (s.setVia v .via1).via0 = s.via0 := rfl
@[simp] theorem State.setVia_via1_via1 (s : State) (v : Via) : (s.setVia v .via1).via1 = v := rfl
@[simp] theorem State.setVia_via (s : State) (v : Via) (k : ViaId) : (s.setVia v k).via k = v := by cases k <;> rfl
@[simp] theorem State.setVia_via_other (s : State) (v : Via) (k : ViaId) : (s.setVia v k).via k.other = s.via k.other := by
  cases k <;> rfl
@[simp] theorem State.setVia_host (s : State) (v : Via) (k : ViaId) : (s.setVia v k).host = s.host := by cases k <;> rfl
@[simp] theorem State.setVia_bm (s : State) (v : Via) (k : ViaId) : (s.setVia v k).bm = s.bm := by cases k <;> rfl
@[simp] theorem State.setVia_loop (s : State) (v : Via) (k : ViaId) : (s.setVia v k).loop = s.loop := by cases k <;> rfl
@[simp] theorem State.setVia_io (s : State) (v : Via) (k : ViaId) : (s.setVia v k).io = s.io := by cases k <;> rfl
@[simp] theorem State.setVia_self (s : State) (k : ViaId) : s.setVia (s.via k) k = s := by cases k <;> rfl
@[simp] theorem State.setVia_setVia (s : State) (v w : Via) (k : ViaId) : (s.setVia v k).setVia w k = s.setVia w k := by
  cases k <;> rfl

@[simp] theorem State.returning_via0 (s : State) (r : Returned) : (s.returning r).via0 = s.via0 := rfl
@[simp] theorem State.returning_via1 (s : State) (r : Returned) : (s.returning r).via1 = s.via1 := rfl
@[simp] theorem State.returning_host (s : State) (r : Returned) : (s.returning r).host = s.host := rfl
@[simp] theorem State.returning_bm (s : State) (r : Returned) : (s.returning r).bm = s.bm := rfl
@[simp] theorem State.returning_loop (s : State) (r : Returned) : (s.returning r).loop = s.loop := rfl
@[simp] theorem State.returning_io (s : State) (r : Returned) : (s.returning r).io = { s.io with ret := r } := rfl
@[simp] theorem State.returning_via (s : State) (r : Returned) (k : ViaId) : (s.returning r).via k = s.via k := by cases k <;> rfl

@[simp] theorem State.withInputs_via0 (s : State) (is : List Input) : (s.withInputs is).via0 = s.via0 := rfl
@[simp] theorem State.withInputs_via1 (s : State) (is : List Input) : (s.withInputs is).via1 = s.via1 := rfl
@[simp] theorem State.withInputs_host (s : State) (is : List Input) : (s.withInputs is).host = s.host := rfl
@[simp] theorem State.withInputs_bm (s : State) (is : List Input) : (s.withInputs is).bm = s.bm := rfl
@[simp] theorem State.withInputs_loop (s : State) (is : List Input) : (s.withInputs is).loop = s.loop := rfl
@[simp] theorem State.withInputs_io (s : State) (is : List Input) : (s.withInputs is).io = { s.io with inputs := is } := rfl
@[simp] theorem State.withInputs_via (s : State) (is : List Input) (k : ViaId) : (s.withInputs is).via k = s.via k := by cases k <;> rfl

@[simp] theorem State.answering_via0 (s : State) (c : Console) : (s.answering c).via0 = s.via0 := rfl
@[simp] theorem State.answering_via1 (s : State) (c : Console) : (s.answering c).via1 = s.via1 := rfl
@[simp] theorem State.answering_host (s : State) (c : Console) : (s.answering c).host = s.host := rfl
@[simp] theorem State.answering_bm (s : State) (c : Console) : (s.answering c).bm = s.bm := rfl
@[simp] theorem State.answering_loop (s : State) (c : Console) : (s.answering c).loop = s.loop := rfl
@[simp] theorem State.answering_io (s : State) (c : Console) : (s.answering c).io = { s.io with console := c } := rfl
@[simp] theorem State.answering_via (s : State) (c : Console) (k : ViaId) : (s.answering c).via k = s.via k := by cases k <;> rfl

@[simp] theorem State.writeOut_via0 (s : State) (b : BusState) : (s.writeOut b).via0 = s.via0 := rfl
@[simp] theorem State.writeOut_via1 (s : State) (b : BusState) : (s.writeOut b).via1 = s.via1 := rfl
@[simp] theorem State.writeOut_host (s : State) (b : BusState) : (s.writeOut b).host = { s.host with out := b } := rfl
@[simp] theorem State.writeOut_bm (s : State) (b : BusState) : (s.writeOut b).bm = { s.bm with synced := false } := rfl
@[simp] theorem State.writeOut_loop (s : State) (b : BusState) : (s.writeOut b).loop = s.loop := rfl
@[simp] theorem State.writeOut_io (s : State) (b : BusState) : (s.writeOut b).io = s.io := rfl
@[simp] theorem State.writeOut_via (s : State) (b : BusState) (k : ViaId) : (s.writeOut b).via k = s.via k := by cases k <;> rfl

@[simp] theorem State.setBm_via0 (s : State) (b : BusMaster) : (s.setBm b).via0 = s.via0 := rfl
@[simp] theorem State.setBm_via1 (s : State) (b : BusMaster) : (s.setBm b).via1 = s.via1 := rfl
@[simp] theorem State.setBm_host (s : State) (b : BusMaster) : (s.setBm b).host = s.host := rfl
@[simp] theorem State.setBm_bm (s : State) (b : BusMaster) : (s.setBm b).bm = b := rfl
@[simp] theorem State.setBm_loop (s : State) (b : BusMaster) : (s.setBm b).loop = s.loop := rfl
@[simp] theorem State.setBm_io (s : State) (b : BusMaster) : (s.setBm b).io = s.io := rfl
@[simp] theorem State.setBm_via (s : State) (b : BusMaster) (k : ViaId) : (s.setBm b).via k = s.via k := by cases k <;> rfl

@[simp] theorem State.setLoop_via0 (s : State) (p : LoopPhase) : (s.setLoop p).via0 = s.via0 := rfl
@[simp] theorem State.setLoop_via1 (s : State) (p : LoopPhase) : (s.setLoop p).via1 = s.via1 := rfl
@[simp] theorem State.setLoop_host (s : State) (p : LoopPhase) : (s.setLoop p).host = s.host := rfl
@[simp] theorem State.setLoop_bm (s : State) (p : LoopPhase) : (s.setLoop p).bm = s.bm := rfl
@[simp] theorem State.setLoop_loop (s : State) (p : LoopPhase) : (s.setLoop p).loop = p := rfl
@[simp] theorem State.setLoop_io (s : State) (p : LoopPhase) : (s.setLoop p).io = s.io := rfl
@[simp] theorem State.setLoop_via (s : State) (p : LoopPhase) (k : ViaId) : (s.setLoop p).via k = s.via k := by cases k <;> rfl

@[simp] theorem State.advance_via0 (s : State) : (s.advance).via0 = s.via0 := rfl
@[simp] theorem State.advance_via1 (s : State) : (s.advance).via1 = s.via1 := rfl
@[simp] theorem State.advance_host (s : State) : (s.advance).host = s.host := rfl
@[simp] theorem State.advance_bm (s : State) : (s.advance).bm = { s.bm with step := s.bm.step + 1 } := rfl
@[simp] theorem State.advance_loop (s : State) : (s.advance).loop = s.loop := rfl
@[simp] theorem State.advance_io (s : State) : (s.advance).io = s.io := rfl
@[simp] theorem State.advance_via (s : State) (k : ViaId) : (s.advance).via k = s.via k := by cases k <;> rfl

@[simp] theorem State.driveStepOut_via0 (s : State) (b : BusState) : (s.driveStepOut b).via0 = s.via0 := rfl
@[simp] theorem State.driveStepOut_via1 (s : State) (b : BusState) : (s.driveStepOut b).via1 = s.via1 := rfl
@[simp] theorem State.driveStepOut_host (s : State) (b : BusState) : (s.driveStepOut b).host = { s.host with out := b } := rfl
@[simp] theorem State.driveStepOut_bm (s : State) (b : BusState) : (s.driveStepOut b).bm = { s.bm with synced := false, step := s.bm.step + 1 } := rfl
@[simp] theorem State.driveStepOut_loop (s : State) (b : BusState) : (s.driveStepOut b).loop = s.loop := rfl
@[simp] theorem State.driveStepOut_io (s : State) (b : BusState) : (s.driveStepOut b).io = s.io := rfl
@[simp] theorem State.driveStepOut_via (s : State) (b : BusState) (k : ViaId) : (s.driveStepOut b).via k = s.via k := by cases k <;> rfl

@[simp] theorem State.tickBoth_via0 (s : State) : (s.tickBoth).via0 = s.via0.tick := rfl
@[simp] theorem State.tickBoth_via1 (s : State) : (s.tickBoth).via1 = s.via1.tick := rfl
@[simp] theorem State.tickBoth_host (s : State) : (s.tickBoth).host = s.host := rfl
@[simp] theorem State.tickBoth_bm (s : State) : (s.tickBoth).bm = s.bm := rfl
@[simp] theorem State.tickBoth_loop (s : State) : (s.tickBoth).loop = s.loop := rfl
@[simp] theorem State.tickBoth_io (s : State) : (s.tickBoth).io = s.io := rfl

@[simp] theorem State.offerInterrupt_via0 (s : State) : (s.offerInterrupt).via0 = s.via0 := rfl
@[simp] theorem State.offerInterrupt_via1 (s : State) : (s.offerInterrupt).via1 = s.via1 := rfl
@[simp] theorem State.offerInterrupt_host (s : State) : (s.offerInterrupt).host = s.host := rfl
@[simp] theorem State.offerInterrupt_bm (s : State) : (s.offerInterrupt).bm = s.bm := rfl
@[simp] theorem State.offerInterrupt_loop (s : State) : (s.offerInterrupt).loop = s.loop := rfl
@[simp] theorem State.offerInterrupt_io (s : State) : (s.offerInterrupt).io = { s.io with cpuInterrupt := s.irqLine } := rfl
@[simp] theorem State.offerInterrupt_via (s : State) (k : ViaId) : (s.offerInterrupt).via k = s.via k := by cases k <;> rfl

@[simp] theorem State.syncCable_via0 (s : State) : (s.syncCable).via0 = driveWrite s.via0 (mergeBus (hostRead s.host) (driveRead s.via0)) := rfl
@[simp] theorem State.syncCable_via1 (s : State) : (s.syncCable).via1 = s.via1 := rfl
@[simp] theorem State.syncCable_host (s : State) : (s.syncCable).host = hostWrite s.host (mergeBus (hostRead s.host) (driveRead s.via0)) := rfl
@[simp] theorem State.syncCable_bm (s : State) : (s.syncCable).bm = { s.bm with synced := true } := rfl
@[simp] theorem State.syncCable_loop (s : State) : (s.syncCable).loop = s.loop := rfl
@[simp] theorem State.syncCable_io (s : State) : (s.syncCable).io = s.io := rfl

@[simp] theorem State.hostSet_via0 (s : State) (sig : Signal) (l : BusLine) : (s.hostSet sig l).via0 = s.via0 := rfl
@[simp] theorem State.hostSet_via1 (s : State) (sig : Signal) (l : BusLine) : (s.hostSet sig l).via1 = s.via1 := rfl
@[simp] theorem State.hostSet_host (s : State) (sig : Signal) (l : BusLine) : (s.hostSet sig l).host = { s.host with out := s.host.out.setLine sig l } := rfl
@[simp] theorem State.hostSet_bm (s : State) (sig : Signal) (l : BusLine) : (s.hostSet sig l).bm = { s.bm with synced := false } := rfl
@[simp] theorem State.hostSet_loop (s : State) (sig : Signal) (l : BusLine) : (s.hostSet sig l).loop = s.loop := rfl
@[simp] theorem State.hostSet_io (s : State) (sig : Signal) (l : BusLine) : (s.hostSet sig l).io = s.io := rfl
@[simp] theorem State.hostSet_via (s : State) (sig : Signal) (l : BusLine) (k : ViaId) : (s.hostSet sig l).via k = s.via k := by cases k <;> rfl

/-- Turning the queue back and forth: the state under a queued turn is the state itself. -/
@[simp] theorem State.withInputs_withInputs (s : State) (is js : List Input) :
    (s.withInputs is).withInputs js = s.withInputs js := rfl

@[simp] theorem State.withInputs_self (s : State) : s.withInputs s.io.inputs = s := rfl

end Sys2Proof.Machine
end

