-- ==== Sys2Proof/Laws/BusMaster.lean ====
section
/-! SUPPORT. What each shared operation of the bus master can do, said once. -/

namespace Sys2Proof.Machine

/-- The cleanup negates ATN and clears `synced`, or does nothing. -/
theorem State.cleanUp_eq (s : State) : s.cleanUp =
    if s.bm.cleansUp = true then
      { s with host := { s.host with out := { s.host.out with atn := .negated } }, bm := { s.bm with synced := false } }
    else s := rfl

/-- A failed sequence, with the command cleanup. -/
theorem State.fail_of_cleansUp (s : State) (tag : PollTag) (h : s.bm.cleansUp = true) : s.fail tag =
    { s with
      host := { s.host with out := { s.host.out with atn := .negated } }
      bm := { s.bm with result := .timeout s.bm.seq tag s.host.inp, seq := .idle, step := 0, retries := 0,
                        synced := false } } := by
  have h' : ({ s.bm with result := .timeout s.bm.seq tag s.host.inp } : BusMaster).cleansUp = true := h
  simp [State.fail, State.cleanUp, h', State.setBm, State.writeOut]

/-- A failed sequence, without it. -/
theorem State.fail_of_not_cleansUp (s : State) (tag : PollTag) (h : s.bm.cleansUp = false) : s.fail tag =
    { s with bm := { s.bm with
      result := .timeout s.bm.seq tag s.host.inp, seq := .idle, step := 0, retries := 0 } } := by
  have h' : ({ s.bm with result := .timeout s.bm.seq tag s.host.inp } : BusMaster).cleansUp = false := h
  simp [State.fail, State.cleanUp, h', State.setBm]

/-- A poll without a Sync since the last write takes no sample. -/
theorem State.poll_of_not_synced (s : State) (tag : PollTag) (c : Bool) (h : s.bm.synced = false) : s.poll tag c = s := by
  simp [State.poll, h]

/-- A sample whose condition holds. -/
theorem State.poll_of_holds (s : State) (tag : PollTag) (h : s.bm.synced = true) :
    s.poll tag true = { s with bm := { s.bm with retries := 0, step := s.bm.step + 1 } } := by
  simp [State.poll, h, State.advance, State.setBm]

/-- A failed sample: it counts, or it is the last one and ends the sequence. -/
theorem State.poll_of_fails (s : State) (tag : PollTag) (h : s.bm.synced = true) :
    s.poll tag false =
      if s.bm.retries + 1 = Config.pollRetries then
        (s.setBm { s.bm with retries := s.bm.retries + 1 }).fail tag
      else { s with bm := { s.bm with retries := s.bm.retries + 1 } } := by
  simp [State.poll, h, State.setBm]

/-- The cleanup runs exactly where a command's step is next. -/
theorem BusMaster.cleansUp_eq_inCommand (b : BusMaster) : b.cleansUp = b.inCommand := by
  cases b with
  | mk seq step retries prim sec round phase byte bytes result synced =>
    cases seq <;> cases phase <;> rfl

/-- The bus master's turn, by the family of the step that is next. -/
theorem State.hostStep_cases (s : State) : s.hostStep =
    if s.bm.inCommand = true then s.commandStep else if s.bm.inRead = true then s.readStep else s := by
  cases hs : s.bm.seq <;> cases hp : s.bm.phase <;> simp [State.hostStep, BusMaster.inCommand, BusMaster.inRead, hs, hp]

/-- The queue of turns plays no part in a failed sequence, -/
theorem State.fail_withInputs (s : State) (tag : PollTag) (q : List Input) :
    (s.withInputs q).fail tag = (s.fail tag).withInputs q := by
  cases h : s.bm.cleansUp
  · rw [State.fail_of_not_cleansUp s tag h, State.fail_of_not_cleansUp (s.withInputs q) tag h]; rfl
  · rw [State.fail_of_cleansUp s tag h, State.fail_of_cleansUp (s.withInputs q) tag h]; rfl

/-- nor at a poll, -/
theorem State.poll_withInputs (s : State) (tag : PollTag) (c : Bool) (q : List Input) :
    (s.withInputs q).poll tag c = (s.poll tag c).withInputs q := by
  cases h : s.bm.synced
  · rw [State.poll_of_not_synced s tag c h, State.poll_of_not_synced (s.withInputs q) tag c h]
  · cases c
    · rw [State.poll_of_fails s tag h, State.poll_of_fails (s.withInputs q) tag h,
        show (s.withInputs q).bm = s.bm from rfl]
      split
      · exact State.fail_withInputs (s.setBm { s.bm with retries := s.bm.retries + 1 }) tag q
      · rfl
    · rw [State.poll_of_holds s tag h, State.poll_of_holds (s.withInputs q) tag h]; rfl

/-- nor in the bus master's turn. -/
theorem State.hostStep_withInputs (s : State) (q : List Input) : (s.withInputs q).hostStep = s.hostStep.withInputs q := by
  have hb : (s.withInputs q).bm = s.bm := rfl
  rw [State.hostStep_cases, State.hostStep_cases, hb]
  split
  · unfold State.commandStep; rw [hb]; split
    all_goals first | rfl | exact State.poll_withInputs _ _ _ _ | (unfold State.commandStep11; rw [hb]; split <;> rfl)
  · split
    · unfold State.readStep; rw [hb]; split
      all_goals first
        | rfl
        | exact State.poll_withInputs _ _ _ _
        | (unfold State.substituteEoi; rw [show (s.withInputs q).host = s.host from rfl]; split <;> rfl)
    · rfl

end Sys2Proof.Machine
end

