-- ==== Sys2Proof/Laws/Exec.lean ====
section
/-! SUPPORT. What each transaction is, over the shared operations, and what a turn and a run are: the lemmas a proof cites instead of unfolding `exec` and `step`. -/

namespace Sys2Proof.Machine

theorem exec_rdPb (k : ViaId) (s : State) : exec (.rdPb k) s = .next (s.cpuRead k .pb) := rfl
theorem exec_rdPa (k : ViaId) (s : State) : exec (.rdPa k) s = .next (s.cpuRead k .pa) := rfl
theorem exec_rdDdrb (k : ViaId) (s : State) : exec (.rdDdrb k) s = .next (s.cpuRead k .ddrb) := rfl
theorem exec_rdDdra (k : ViaId) (s : State) : exec (.rdDdra k) s = .next (s.cpuRead k .ddra) := rfl
theorem exec_rdT1lo (k : ViaId) (s : State) : exec (.rdT1lo k) s = .next (s.cpuRead k .t1lo) := rfl
theorem exec_rdT1hi (k : ViaId) (s : State) : exec (.rdT1hi k) s = .next (s.cpuRead k .t1hi) := rfl
theorem exec_rdT1llo (k : ViaId) (s : State) : exec (.rdT1llo k) s = .next (s.cpuRead k .t1llo) := rfl
theorem exec_rdT1lhi (k : ViaId) (s : State) : exec (.rdT1lhi k) s = .next (s.cpuRead k .t1lhi) := rfl
theorem exec_rdU8 (k : ViaId) (s : State) : exec (.rdU8 k) s = .next (s.cpuRead k .u8) := rfl
theorem exec_rdU9 (k : ViaId) (s : State) : exec (.rdU9 k) s = .next (s.cpuRead k .u9) := rfl
theorem exec_rdUa (k : ViaId) (s : State) : exec (.rdUa k) s = .next (s.cpuRead k .ua) := rfl
theorem exec_rdAcr (k : ViaId) (s : State) : exec (.rdAcr k) s = .next (s.cpuRead k .acr) := rfl
theorem exec_rdPcr (k : ViaId) (s : State) : exec (.rdPcr k) s = .next (s.cpuRead k .pcr) := rfl
theorem exec_rdIfr (k : ViaId) (s : State) : exec (.rdIfr k) s = .next (s.cpuRead k .ifr) := rfl
theorem exec_rdIe (k : ViaId) (s : State) : exec (.rdIe k) s = .next (s.cpuRead k .ie) := rfl
theorem exec_rdUf (k : ViaId) (s : State) : exec (.rdUf k) s = .next (s.cpuRead k .uf) := rfl
theorem exec_wrPb (k : ViaId) (d : Byte) (s : State) : exec (.wrPb k d) s = .next (s.cpuWrite k d .pb) := rfl
theorem exec_wrPa (k : ViaId) (d : Byte) (s : State) : exec (.wrPa k d) s = .next (s.cpuWrite k d .pa) := rfl
theorem exec_wrDdrb (k : ViaId) (d : Byte) (s : State) : exec (.wrDdrb k d) s = .next (s.cpuWrite k d .ddrb) := rfl
theorem exec_wrDdra (k : ViaId) (d : Byte) (s : State) : exec (.wrDdra k d) s = .next (s.cpuWrite k d .ddra) := rfl
theorem exec_wrT1lo (k : ViaId) (d : Byte) (s : State) : exec (.wrT1lo k d) s = .next (s.cpuWrite k d .t1lo) := rfl
theorem exec_wrT1hi (k : ViaId) (d : Byte) (s : State) : exec (.wrT1hi k d) s = .next (s.cpuWrite k d .t1hi) := rfl
theorem exec_wrT1llo (k : ViaId) (d : Byte) (s : State) : exec (.wrT1llo k d) s = .next (s.cpuWrite k d .t1llo) := rfl
theorem exec_wrT1lhi (k : ViaId) (d : Byte) (s : State) : exec (.wrT1lhi k d) s = .next (s.cpuWrite k d .t1lhi) := rfl
theorem exec_wrU8 (k : ViaId) (d : Byte) (s : State) : exec (.wrU8 k d) s = .next (s.cpuWrite k d .u8) := rfl
theorem exec_wrU9 (k : ViaId) (d : Byte) (s : State) : exec (.wrU9 k d) s = .next (s.cpuWrite k d .u9) := rfl
theorem exec_wrUa (k : ViaId) (d : Byte) (s : State) : exec (.wrUa k d) s = .next (s.cpuWrite k d .ua) := rfl
theorem exec_wrAcr (k : ViaId) (d : Byte) (s : State) : exec (.wrAcr k d) s = .next (s.cpuWrite k d .acr) := rfl
theorem exec_wrPcr (k : ViaId) (d : Byte) (s : State) : exec (.wrPcr k d) s = .next (s.cpuWrite k d .pcr) := rfl
theorem exec_wrIfr (k : ViaId) (d : Byte) (s : State) : exec (.wrIfr k d) s = .next (s.cpuWrite k d .ifr) := rfl
theorem exec_wrIe (k : ViaId) (d : Byte) (s : State) : exec (.wrIe k d) s = .next (s.cpuWrite k d .ie) := rfl
theorem exec_wrUf (k : ViaId) (d : Byte) (s : State) : exec (.wrUf k d) s = .next (s.cpuWrite k d .uf) := rfl
theorem exec_peekPb (k : ViaId) (s : State) : exec (.peekPb k) s = .next (s.peekReg k .pb) := rfl
theorem exec_peekPa (k : ViaId) (s : State) : exec (.peekPa k) s = .next (s.peekReg k .pa) := rfl
theorem exec_peekDdrb (k : ViaId) (s : State) : exec (.peekDdrb k) s = .next (s.peekReg k .ddrb) := rfl
theorem exec_peekDdra (k : ViaId) (s : State) : exec (.peekDdra k) s = .next (s.peekReg k .ddra) := rfl
theorem exec_peekT1lo (k : ViaId) (s : State) : exec (.peekT1lo k) s = .next (s.peekReg k .t1lo) := rfl
theorem exec_peekT1hi (k : ViaId) (s : State) : exec (.peekT1hi k) s = .next (s.peekReg k .t1hi) := rfl
theorem exec_peekT1llo (k : ViaId) (s : State) : exec (.peekT1llo k) s = .next (s.peekReg k .t1llo) := rfl
theorem exec_peekT1lhi (k : ViaId) (s : State) : exec (.peekT1lhi k) s = .next (s.peekReg k .t1lhi) := rfl
theorem exec_peekU8 (k : ViaId) (s : State) : exec (.peekU8 k) s = .next (s.peekReg k .u8) := rfl
theorem exec_peekU9 (k : ViaId) (s : State) : exec (.peekU9 k) s = .next (s.peekReg k .u9) := rfl
theorem exec_peekUa (k : ViaId) (s : State) : exec (.peekUa k) s = .next (s.peekReg k .ua) := rfl
theorem exec_peekAcr (k : ViaId) (s : State) : exec (.peekAcr k) s = .next (s.peekReg k .acr) := rfl
theorem exec_peekPcr (k : ViaId) (s : State) : exec (.peekPcr k) s = .next (s.peekReg k .pcr) := rfl
theorem exec_peekIfr (k : ViaId) (s : State) : exec (.peekIfr k) s = .next (s.peekReg k .ifr) := rfl
theorem exec_peekIe (k : ViaId) (s : State) : exec (.peekIe k) s = .next (s.peekReg k .ie) := rfl
theorem exec_peekUf (k : ViaId) (s : State) : exec (.peekUf k) s = .next (s.peekReg k .uf) := rfl
theorem exec_tick (k : ViaId) (s : State) : exec (.tick k) s = .next (s.setVia (s.via k).tick k) := rfl
theorem exec_ctrlinCa2 (k : ViaId) (t : Bool) (s : State) : exec (.ctrlinCa2 k t) s = .next (s.setVia ((s.via k).ctrlIn .ca2 t) k) := rfl
theorem exec_ctrlinCa1 (k : ViaId) (t : Bool) (s : State) : exec (.ctrlinCa1 k t) s = .next (s.setVia ((s.via k).ctrlIn .ca1 t) k) := rfl
theorem exec_ctrlinCb2 (k : ViaId) (t : Bool) (s : State) : exec (.ctrlinCb2 k t) s = .next (s.setVia ((s.via k).ctrlIn .cb2 t) k) := rfl
theorem exec_ctrlinCb1 (k : ViaId) (t : Bool) (s : State) : exec (.ctrlinCb1 k t) s = .next (s.setVia ((s.via k).ctrlIn .cb1 t) k) := rfl
theorem exec_ginB (k : ViaId) (e : Byte) (s : State) : exec (.ginB k e) s = .next (s.setVia ((s.via k).portIn .b e) k) := rfl
theorem exec_ginA (k : ViaId) (e : Byte) (s : State) : exec (.ginA k e) s = .next (s.setVia ((s.via k).portIn .a e) k) := rfl
theorem exec_goutB (k : ViaId) (s : State) : exec (.goutB k) s = .next (s.returning (.byte ((s.via k).portOut .b))) := rfl
theorem exec_goutA (k : ViaId) (s : State) : exec (.goutA k) s = .next (s.returning (.byte ((s.via k).portOut .a))) := rfl
theorem exec_ctrloutCa2 (k : ViaId) (s : State) : exec (.ctrloutCa2 k) s = s.controlOutput k .ca2 := rfl
theorem exec_ctrloutCb2 (k : ViaId) (s : State) : exec (.ctrloutCb2 k) s = s.controlOutput k .cb2 := rfl
theorem exec_chkirq (k : ViaId) (s : State) : exec (.chkirq k) s = .next (s.returning (.level (s.via k).irq)) := rfl
theorem exec_irqline (s : State) : exec .irqline s = .next (s.returning (.level s.irqLine)) := rfl
theorem exec_reset (k : ViaId) (s : State) : exec (.reset k) s = .next (s.setVia Via.reset k) := rfl
theorem exec_sync (s : State) : exec .sync s = .next s.syncCable := rfl
theorem exec_hsetDav (sig : Signal) (s : State) : exec (.hsetDav sig) s = .next (s.hostSet sig .dav) := rfl
theorem exec_hsetEoi (sig : Signal) (s : State) : exec (.hsetEoi sig) s = .next (s.hostSet sig .eoi) := rfl
theorem exec_hsetNdac (sig : Signal) (s : State) : exec (.hsetNdac sig) s = .next (s.hostSet sig .ndac) := rfl
theorem exec_hsetNrfd (sig : Signal) (s : State) : exec (.hsetNrfd sig) s = .next (s.hostSet sig .nrfd) := rfl
theorem exec_hsetSrq (sig : Signal) (s : State) : exec (.hsetSrq sig) s = .next (s.hostSet sig .srq) := rfl
theorem exec_hsetAtn (sig : Signal) (s : State) : exec (.hsetAtn sig) s = .next (s.hostSet sig .atn) := rfl
theorem exec_hsetRen (sig : Signal) (s : State) : exec (.hsetRen sig) s = .next (s.hostSet sig .ren) := rfl
theorem exec_hsetIfc (sig : Signal) (s : State) : exec (.hsetIfc sig) s = .next (s.hostSet sig .ifc) := rfl
theorem exec_hdio (b : Byte) (s : State) : exec (.hdio b) s = .next (s.writeOut { s.host.out with dio := b }) := rfl
theorem exec_hreset (s : State) : exec .hreset s = .next (s.writeOut BusState.released) := rfl
theorem exec_cmd (p : Byte) (sec : Byte) (s : State) : exec (.cmd p sec) s = s.startSequence (({ s.bm with seq := .cmd }).startCommand p sec) := rfl
theorem exec_readbyte (s : State) : exec .readbyte s = s.startSequence ({ s.bm with seq := .readByte }).startRead := rfl
theorem exec_input (p : Byte) (sec : Byte) (s : State) : exec (.input p sec) s = s.startSequence (({ s.bm with seq := .input, phase := .talk, bytes := [] }).startCommand p sec) := rfl

/-- The three register families at once, by offset. -/
theorem exec_rdInstr (k : ViaId) (r : Reg) (s : State) : exec (rdInstr k r) s = .next (s.cpuRead k r) := by
  cases r <;> rfl

theorem exec_wrInstr (k : ViaId) (d : Byte) (r : Reg) (s : State) :
    exec (wrInstr k d r) s = .next (s.cpuWrite k d r) := by
  cases r <;> rfl

theorem exec_peekInstr (k : ViaId) (r : Reg) (s : State) : exec (peekInstr k r) s = .next (s.peekReg k r) := by
  cases r <;> rfl

theorem runInstrs_nil (s : State) : runInstrs [] s = .next s := rfl

/-- A run goes on from an instruction's next state. -/
theorem runInstrs_cons_of_next {i : Instr} {s t : State} (is : List Instr) (h : exec i s = .next t) :
    runInstrs (i :: is) s = runInstrs is t := by
  simp [runInstrs, h]

/-- A run of two lists is the run of the second from where the first ends. -/
theorem runInstrs_append_of_next {is : List Instr} {s t : State} (js : List Instr) (h : runInstrs is s = .next t) :
    runInstrs (is ++ js) s = runInstrs js t := by
  induction is generalizing s with
  | nil =>
    cases h
    rfl
  | cons i is ih =>
    simp only [runInstrs, List.cons_append] at h ⊢
    cases hi : exec i s with
    | next u =>
      rw [hi] at h
      exact ih h
    | fault r =>
      rw [hi] at h
      cases h
    | refused r =>
      rw [hi] at h
      cases h

/-- A turn of the bus master. -/
theorem turn_host (s : State) : turn .host s = .next s.hostStep := rfl

/-- A turn of the drive loop. -/
theorem turn_drive (e : CpuEvent) (s : State) : turn (.drive e) s = .next (s.driveStep e) := rfl

/-- A line read by the monitor. -/
theorem turn_line (cs : List Char) (s : State) : turn (.line cs) s = runLine cs s := rfl

/-- A list of transactions. -/
theorem turn_transactions (k : ViaId) (ws : List Word) (s : State) :
    turn (.transactions k ws) s = runTransactions k ws s := rfl

/-- A run of turns that starts with the bus master's. -/
@[simp] theorem runTurns_host (is : List Input) (s : State) : runTurns (.host :: is) s = runTurns is s.hostStep := rfl

/-- A run of turns that starts with the drive loop's. -/
@[simp] theorem runTurns_drive (e : CpuEvent) (is : List Input) (s : State) :
    runTurns (.drive e :: is) s = runTurns is (s.driveStep e) := rfl

/-- A run of turns with a next state, cut in two. -/
theorem runTurns_append (a b : List Input) (s t : State) (h : runTurns (a ++ b) s = .next t) :
    ∃ u, runTurns a s = .next u ∧ runTurns b u = .next t := by
  induction a generalizing s with
  | nil => exact ⟨s, rfl, h⟩
  | cons i is ih =>
    simp only [List.cons_append, runTurns] at h ⊢
    cases hi : turn i s with
    | next w => rw [hi] at h; exact ih w h
    | fault r => rw [hi] at h; nomatch h
    | refused r => rw [hi] at h; nomatch h

end Sys2Proof.Machine
end

