-- ==== Sys2Proof/Laws/Via.lean ====
section
/-! SUPPORT. Bits of bit vectors, and one lemma per field per update of a VIA. -/

namespace Sys2Proof.Machine

@[simp] theorem bit_ofNat_zero {w : Nat} (n : Nat) : bit (0#w) n = false := by simp [bit]

theorem bit_setBit {w : Nat} (v : BitVec w) (m n : Nat) (b : Bool) (h : n < w) :
    bit (setBit v m b) n = if n = m then b else bit v n := by
  unfold bit setBit
  by_cases hnm : n = m
  · subst hnm
    cases b <;> simp [h]
  · cases b <;> simp [hnm, h]

theorem bit_setBit_same {w : Nat} (v : BitVec w) (n : Nat) (b : Bool) (h : n < w) : bit (setBit v n b) n = b := by
  simp [bit_setBit v n n b h]

theorem bit_of_le {w : Nat} (v : BitVec w) (n : Nat) (h : w ≤ n) : bit v n = false := by
  simp [bit, BitVec.getLsbD_of_ge v n h]

theorem eq_of_bit_eq {w : Nat} (v u : BitVec w) (h : ∀ n, n < w → bit v n = bit u n) : v = u :=
  BitVec.eq_of_getLsbD_eq h

@[simp] theorem bit_or {w : Nat} (v u : BitVec w) (n : Nat) : bit (v ||| u) n = (bit v n || bit u n) := by simp [bit]

@[simp] theorem bit_and {w : Nat} (v u : BitVec w) (n : Nat) : bit (v &&& u) n = (bit v n && bit u n) := by simp [bit]

theorem bit_not {w : Nat} (v : BitVec w) (n : Nat) (h : n < w) : bit (~~~v) n = !bit v n := by simp [bit, h]

theorem pair_toNat (hi lo : Byte) : (pair hi lo).toNat = hi.toNat * 256 + lo.toNat := by
  have h := BitVec.toNat_append hi lo
  rw [← Nat.shiftLeft_add_eq_or_of_lt lo.isLt, Nat.shiftLeft_eq] at h
  exact h

theorem bytes_toNat (c : Word) : (highByte c).toNat * 256 + (lowByte c).toNat = c.toNat := by
  have := c.isLt
  simp [highByte, lowByte, Nat.shiftRight_eq_div_pow]
  omega

/-- A bit is set in both exactly when their conjunction is not zero. -/
theorem and_ne_zero_iff {w : Nat} (v u : BitVec w) :
    (v &&& u != 0#w) = true ↔ ∃ n, n < w ∧ bit v n = true ∧ bit u n = true := by
  constructor
  · intro h
    apply Classical.byContradiction
    intro hn
    have : v &&& u = 0#w := by
      apply eq_of_bit_eq
      intro n hw
      have := fun hv hu => hn ⟨n, hw, hv, hu⟩
      simp only [bit_and, bit_ofNat_zero, Bool.and_eq_false_iff]
      by_cases hv : bit v n = true
      · right
        exact Bool.eq_false_iff.mpr (this hv)
      · left
        exact Bool.eq_false_iff.mpr hv
    simp [this] at h
  · rintro ⟨n, -, hv, hu⟩
    have h : bit (v &&& u) n = true := by simp [hv, hu]
    simp only [bne_iff_ne, ne_eq]
    intro h0
    rw [h0, bit_ofNat_zero] at h
    cases h

@[simp] theorem Via.raise_pb (v : Via) (n : Nat) : (v.raise n).pb = v.pb := rfl
@[simp] theorem Via.raise_pa (v : Via) (n : Nat) : (v.raise n).pa = v.pa := rfl
@[simp] theorem Via.raise_ddrb (v : Via) (n : Nat) : (v.raise n).ddrb = v.ddrb := rfl
@[simp] theorem Via.raise_ddra (v : Via) (n : Nat) : (v.raise n).ddra = v.ddra := rfl
@[simp] theorem Via.raise_t1ll (v : Via) (n : Nat) : (v.raise n).t1ll = v.t1ll := rfl
@[simp] theorem Via.raise_t1lh (v : Via) (n : Nat) : (v.raise n).t1lh = v.t1lh := rfl
@[simp] theorem Via.raise_t1c (v : Via) (n : Nat) : (v.raise n).t1c = v.t1c := rfl
@[simp] theorem Via.raise_acr (v : Via) (n : Nat) : (v.raise n).acr = v.acr := rfl
@[simp] theorem Via.raise_pcr (v : Via) (n : Nat) : (v.raise n).pcr = v.pcr := rfl
@[simp] theorem Via.raise_ifr (v : Via) (n : Nat) : (v.raise n).ifr = setBit v.ifr n true := rfl
@[simp] theorem Via.raise_ie (v : Via) (n : Nat) : (v.raise n).ie = v.ie := rfl
@[simp] theorem Via.raise_ca1 (v : Via) (n : Nat) : (v.raise n).ca1 = v.ca1 := rfl
@[simp] theorem Via.raise_ca2 (v : Via) (n : Nat) : (v.raise n).ca2 = v.ca2 := rfl
@[simp] theorem Via.raise_cb1 (v : Via) (n : Nat) : (v.raise n).cb1 = v.cb1 := rfl
@[simp] theorem Via.raise_cb2 (v : Via) (n : Nat) : (v.raise n).cb2 = v.cb2 := rfl

@[simp] theorem Via.lower_pb (v : Via) (n : Nat) : (v.lower n).pb = v.pb := rfl
@[simp] theorem Via.lower_pa (v : Via) (n : Nat) : (v.lower n).pa = v.pa := rfl
@[simp] theorem Via.lower_ddrb (v : Via) (n : Nat) : (v.lower n).ddrb = v.ddrb := rfl
@[simp] theorem Via.lower_ddra (v : Via) (n : Nat) : (v.lower n).ddra = v.ddra := rfl
@[simp] theorem Via.lower_t1ll (v : Via) (n : Nat) : (v.lower n).t1ll = v.t1ll := rfl
@[simp] theorem Via.lower_t1lh (v : Via) (n : Nat) : (v.lower n).t1lh = v.t1lh := rfl
@[simp] theorem Via.lower_t1c (v : Via) (n : Nat) : (v.lower n).t1c = v.t1c := rfl
@[simp] theorem Via.lower_acr (v : Via) (n : Nat) : (v.lower n).acr = v.acr := rfl
@[simp] theorem Via.lower_pcr (v : Via) (n : Nat) : (v.lower n).pcr = v.pcr := rfl
@[simp] theorem Via.lower_ifr (v : Via) (n : Nat) : (v.lower n).ifr = setBit v.ifr n false := rfl
@[simp] theorem Via.lower_ie (v : Via) (n : Nat) : (v.lower n).ie = v.ie := rfl
@[simp] theorem Via.lower_ca1 (v : Via) (n : Nat) : (v.lower n).ca1 = v.ca1 := rfl
@[simp] theorem Via.lower_ca2 (v : Via) (n : Nat) : (v.lower n).ca2 = v.ca2 := rfl
@[simp] theorem Via.lower_cb1 (v : Via) (n : Nat) : (v.lower n).cb1 = v.cb1 := rfl
@[simp] theorem Via.lower_cb2 (v : Via) (n : Nat) : (v.lower n).cb2 = v.cb2 := rfl

@[simp] theorem Via.setPort_ddrb (v : Via) (x : Byte) (p : Port) : (v.setPort x p).ddrb = v.ddrb := by cases p <;> rfl
@[simp] theorem Via.setPort_ddra (v : Via) (x : Byte) (p : Port) : (v.setPort x p).ddra = v.ddra := by cases p <;> rfl
@[simp] theorem Via.setPort_t1ll (v : Via) (x : Byte) (p : Port) : (v.setPort x p).t1ll = v.t1ll := by cases p <;> rfl
@[simp] theorem Via.setPort_t1lh (v : Via) (x : Byte) (p : Port) : (v.setPort x p).t1lh = v.t1lh := by cases p <;> rfl
@[simp] theorem Via.setPort_t1c (v : Via) (x : Byte) (p : Port) : (v.setPort x p).t1c = v.t1c := by cases p <;> rfl
@[simp] theorem Via.setPort_acr (v : Via) (x : Byte) (p : Port) : (v.setPort x p).acr = v.acr := by cases p <;> rfl
@[simp] theorem Via.setPort_pcr (v : Via) (x : Byte) (p : Port) : (v.setPort x p).pcr = v.pcr := by cases p <;> rfl
@[simp] theorem Via.setPort_ifr (v : Via) (x : Byte) (p : Port) : (v.setPort x p).ifr = v.ifr := by cases p <;> rfl
@[simp] theorem Via.setPort_ie (v : Via) (x : Byte) (p : Port) : (v.setPort x p).ie = v.ie := by cases p <;> rfl
@[simp] theorem Via.setPort_ca1 (v : Via) (x : Byte) (p : Port) : (v.setPort x p).ca1 = v.ca1 := by cases p <;> rfl
@[simp] theorem Via.setPort_ca2 (v : Via) (x : Byte) (p : Port) : (v.setPort x p).ca2 = v.ca2 := by cases p <;> rfl
@[simp] theorem Via.setPort_cb1 (v : Via) (x : Byte) (p : Port) : (v.setPort x p).cb1 = v.cb1 := by cases p <;> rfl
@[simp] theorem Via.setPort_cb2 (v : Via) (x : Byte) (p : Port) : (v.setPort x p).cb2 = v.cb2 := by cases p <;> rfl

@[simp] theorem Via.setLevel_pb (v : Via) (t : Bool) (l : CtrlLine) : (v.setLevel t l).pb = v.pb := by cases l <;> rfl
@[simp] theorem Via.setLevel_pa (v : Via) (t : Bool) (l : CtrlLine) : (v.setLevel t l).pa = v.pa := by cases l <;> rfl
@[simp] theorem Via.setLevel_ddrb (v : Via) (t : Bool) (l : CtrlLine) : (v.setLevel t l).ddrb = v.ddrb := by cases l <;> rfl
@[simp] theorem Via.setLevel_ddra (v : Via) (t : Bool) (l : CtrlLine) : (v.setLevel t l).ddra = v.ddra := by cases l <;> rfl
@[simp] theorem Via.setLevel_t1ll (v : Via) (t : Bool) (l : CtrlLine) : (v.setLevel t l).t1ll = v.t1ll := by cases l <;> rfl
@[simp] theorem Via.setLevel_t1lh (v : Via) (t : Bool) (l : CtrlLine) : (v.setLevel t l).t1lh = v.t1lh := by cases l <;> rfl
@[simp] theorem Via.setLevel_t1c (v : Via) (t : Bool) (l : CtrlLine) : (v.setLevel t l).t1c = v.t1c := by cases l <;> rfl
@[simp] theorem Via.setLevel_acr (v : Via) (t : Bool) (l : CtrlLine) : (v.setLevel t l).acr = v.acr := by cases l <;> rfl
@[simp] theorem Via.setLevel_pcr (v : Via) (t : Bool) (l : CtrlLine) : (v.setLevel t l).pcr = v.pcr := by cases l <;> rfl
@[simp] theorem Via.setLevel_ifr (v : Via) (t : Bool) (l : CtrlLine) : (v.setLevel t l).ifr = v.ifr := by cases l <;> rfl
@[simp] theorem Via.setLevel_ie (v : Via) (t : Bool) (l : CtrlLine) : (v.setLevel t l).ie = v.ie := by cases l <;> rfl

@[simp] theorem Via.clearPortFlags_pb (v : Via) (p : Port) : (v.clearPortFlags p).pb = v.pb := by cases p <;> simp only [Via.clearPortFlags] <;> split <;> rfl
@[simp] theorem Via.clearPortFlags_pa (v : Via) (p : Port) : (v.clearPortFlags p).pa = v.pa := by cases p <;> simp only [Via.clearPortFlags] <;> split <;> rfl
@[simp] theorem Via.clearPortFlags_ddrb (v : Via) (p : Port) : (v.clearPortFlags p).ddrb = v.ddrb := by cases p <;> simp only [Via.clearPortFlags] <;> split <;> rfl
@[simp] theorem Via.clearPortFlags_ddra (v : Via) (p : Port) : (v.clearPortFlags p).ddra = v.ddra := by cases p <;> simp only [Via.clearPortFlags] <;> split <;> rfl
@[simp] theorem Via.clearPortFlags_t1ll (v : Via) (p : Port) : (v.clearPortFlags p).t1ll = v.t1ll := by cases p <;> simp only [Via.clearPortFlags] <;> split <;> rfl
@[simp] theorem Via.clearPortFlags_t1lh (v : Via) (p : Port) : (v.clearPortFlags p).t1lh = v.t1lh := by cases p <;> simp only [Via.clearPortFlags] <;> split <;> rfl
@[simp] theorem Via.clearPortFlags_t1c (v : Via) (p : Port) : (v.clearPortFlags p).t1c = v.t1c := by cases p <;> simp only [Via.clearPortFlags] <;> split <;> rfl
@[simp] theorem Via.clearPortFlags_acr (v : Via) (p : Port) : (v.clearPortFlags p).acr = v.acr := by cases p <;> simp only [Via.clearPortFlags] <;> split <;> rfl
@[simp] theorem Via.clearPortFlags_pcr (v : Via) (p : Port) : (v.clearPortFlags p).pcr = v.pcr := by cases p <;> simp only [Via.clearPortFlags] <;> split <;> rfl
@[simp] theorem Via.clearPortFlags_ie (v : Via) (p : Port) : (v.clearPortFlags p).ie = v.ie := by cases p <;> simp only [Via.clearPortFlags] <;> split <;> rfl
@[simp] theorem Via.clearPortFlags_ca1 (v : Via) (p : Port) : (v.clearPortFlags p).ca1 = v.ca1 := by cases p <;> simp only [Via.clearPortFlags] <;> split <;> rfl
@[simp] theorem Via.clearPortFlags_ca2 (v : Via) (p : Port) : (v.clearPortFlags p).ca2 = v.ca2 := by cases p <;> simp only [Via.clearPortFlags] <;> split <;> rfl
@[simp] theorem Via.clearPortFlags_cb1 (v : Via) (p : Port) : (v.clearPortFlags p).cb1 = v.cb1 := by cases p <;> simp only [Via.clearPortFlags] <;> split <;> rfl
@[simp] theorem Via.clearPortFlags_cb2 (v : Via) (p : Port) : (v.clearPortFlags p).cb2 = v.cb2 := by cases p <;> simp only [Via.clearPortFlags] <;> split <;> rfl

@[simp] theorem Via.writePort_ddrb (v : Via) (p : Port) (d : Byte) : (v.writePort p d).ddrb = v.ddrb := by simp [Via.writePort]
@[simp] theorem Via.writePort_ddra (v : Via) (p : Port) (d : Byte) : (v.writePort p d).ddra = v.ddra := by simp [Via.writePort]
@[simp] theorem Via.writePort_t1ll (v : Via) (p : Port) (d : Byte) : (v.writePort p d).t1ll = v.t1ll := by simp [Via.writePort]
@[simp] theorem Via.writePort_t1lh (v : Via) (p : Port) (d : Byte) : (v.writePort p d).t1lh = v.t1lh := by simp [Via.writePort]
@[simp] theorem Via.writePort_t1c (v : Via) (p : Port) (d : Byte) : (v.writePort p d).t1c = v.t1c := by simp [Via.writePort]
@[simp] theorem Via.writePort_acr (v : Via) (p : Port) (d : Byte) : (v.writePort p d).acr = v.acr := by simp [Via.writePort]
@[simp] theorem Via.writePort_pcr (v : Via) (p : Port) (d : Byte) : (v.writePort p d).pcr = v.pcr := by simp [Via.writePort]
@[simp] theorem Via.writePort_ie (v : Via) (p : Port) (d : Byte) : (v.writePort p d).ie = v.ie := by simp [Via.writePort]
@[simp] theorem Via.writePort_ca1 (v : Via) (p : Port) (d : Byte) : (v.writePort p d).ca1 = v.ca1 := by simp [Via.writePort]
@[simp] theorem Via.writePort_ca2 (v : Via) (p : Port) (d : Byte) : (v.writePort p d).ca2 = v.ca2 := by simp [Via.writePort]
@[simp] theorem Via.writePort_cb1 (v : Via) (p : Port) (d : Byte) : (v.writePort p d).cb1 = v.cb1 := by simp [Via.writePort]
@[simp] theorem Via.writePort_cb2 (v : Via) (p : Port) (d : Byte) : (v.writePort p d).cb2 = v.cb2 := by simp [Via.writePort]

@[simp] theorem Via.portIn_ddrb (v : Via) (p : Port) (e : Byte) : (v.portIn p e).ddrb = v.ddrb := by simp [Via.portIn]
@[simp] theorem Via.portIn_ddra (v : Via) (p : Port) (e : Byte) : (v.portIn p e).ddra = v.ddra := by simp [Via.portIn]
@[simp] theorem Via.portIn_t1ll (v : Via) (p : Port) (e : Byte) : (v.portIn p e).t1ll = v.t1ll := by simp [Via.portIn]
@[simp] theorem Via.portIn_t1lh (v : Via) (p : Port) (e : Byte) : (v.portIn p e).t1lh = v.t1lh := by simp [Via.portIn]
@[simp] theorem Via.portIn_t1c (v : Via) (p : Port) (e : Byte) : (v.portIn p e).t1c = v.t1c := by simp [Via.portIn]
@[simp] theorem Via.portIn_acr (v : Via) (p : Port) (e : Byte) : (v.portIn p e).acr = v.acr := by simp [Via.portIn]
@[simp] theorem Via.portIn_pcr (v : Via) (p : Port) (e : Byte) : (v.portIn p e).pcr = v.pcr := by simp [Via.portIn]
@[simp] theorem Via.portIn_ifr (v : Via) (p : Port) (e : Byte) : (v.portIn p e).ifr = v.ifr := by simp [Via.portIn]
@[simp] theorem Via.portIn_ie (v : Via) (p : Port) (e : Byte) : (v.portIn p e).ie = v.ie := by simp [Via.portIn]
@[simp] theorem Via.portIn_ca1 (v : Via) (p : Port) (e : Byte) : (v.portIn p e).ca1 = v.ca1 := by simp [Via.portIn]
@[simp] theorem Via.portIn_ca2 (v : Via) (p : Port) (e : Byte) : (v.portIn p e).ca2 = v.ca2 := by simp [Via.portIn]
@[simp] theorem Via.portIn_cb1 (v : Via) (p : Port) (e : Byte) : (v.portIn p e).cb1 = v.cb1 := by simp [Via.portIn]
@[simp] theorem Via.portIn_cb2 (v : Via) (p : Port) (e : Byte) : (v.portIn p e).cb2 = v.cb2 := by simp [Via.portIn]

@[simp] theorem Via.loadTimer_pb (v : Via) (d : Byte) : (v.loadTimer d).pb = v.pb := rfl
@[simp] theorem Via.loadTimer_pa (v : Via) (d : Byte) : (v.loadTimer d).pa = v.pa := rfl
@[simp] theorem Via.loadTimer_ddrb (v : Via) (d : Byte) : (v.loadTimer d).ddrb = v.ddrb := rfl
@[simp] theorem Via.loadTimer_ddra (v : Via) (d : Byte) : (v.loadTimer d).ddra = v.ddra := rfl
@[simp] theorem Via.loadTimer_t1ll (v : Via) (d : Byte) : (v.loadTimer d).t1ll = v.t1ll := rfl
@[simp] theorem Via.loadTimer_t1lh (v : Via) (d : Byte) : (v.loadTimer d).t1lh = d := rfl
@[simp] theorem Via.loadTimer_t1c (v : Via) (d : Byte) : (v.loadTimer d).t1c = pair d v.t1ll := rfl
@[simp] theorem Via.loadTimer_acr (v : Via) (d : Byte) : (v.loadTimer d).acr = v.acr := rfl
@[simp] theorem Via.loadTimer_pcr (v : Via) (d : Byte) : (v.loadTimer d).pcr = v.pcr := rfl
@[simp] theorem Via.loadTimer_ifr (v : Via) (d : Byte) : (v.loadTimer d).ifr = setBit v.ifr t1Flag false := rfl
@[simp] theorem Via.loadTimer_ie (v : Via) (d : Byte) : (v.loadTimer d).ie = v.ie := rfl
@[simp] theorem Via.loadTimer_ca1 (v : Via) (d : Byte) : (v.loadTimer d).ca1 = v.ca1 := rfl
@[simp] theorem Via.loadTimer_ca2 (v : Via) (d : Byte) : (v.loadTimer d).ca2 = v.ca2 := rfl
@[simp] theorem Via.loadTimer_cb1 (v : Via) (d : Byte) : (v.loadTimer d).cb1 = v.cb1 := rfl
@[simp] theorem Via.loadTimer_cb2 (v : Via) (d : Byte) : (v.loadTimer d).cb2 = v.cb2 := rfl

@[simp] theorem Via.tick_pb (v : Via) : (v.tick).pb = v.pb := by simp only [Via.tick]; split <;> [rfl; (split <;> rfl)]
@[simp] theorem Via.tick_pa (v : Via) : (v.tick).pa = v.pa := by simp only [Via.tick]; split <;> [rfl; (split <;> rfl)]
@[simp] theorem Via.tick_ddrb (v : Via) : (v.tick).ddrb = v.ddrb := by simp only [Via.tick]; split <;> [rfl; (split <;> rfl)]
@[simp] theorem Via.tick_ddra (v : Via) : (v.tick).ddra = v.ddra := by simp only [Via.tick]; split <;> [rfl; (split <;> rfl)]
@[simp] theorem Via.tick_t1ll (v : Via) : (v.tick).t1ll = v.t1ll := by simp only [Via.tick]; split <;> [rfl; (split <;> rfl)]
@[simp] theorem Via.tick_t1lh (v : Via) : (v.tick).t1lh = v.t1lh := by simp only [Via.tick]; split <;> [rfl; (split <;> rfl)]
@[simp] theorem Via.tick_acr (v : Via) : (v.tick).acr = v.acr := by simp only [Via.tick]; split <;> [rfl; (split <;> rfl)]
@[simp] theorem Via.tick_pcr (v : Via) : (v.tick).pcr = v.pcr := by simp only [Via.tick]; split <;> [rfl; (split <;> rfl)]
@[simp] theorem Via.tick_ie (v : Via) : (v.tick).ie = v.ie := by simp only [Via.tick]; split <;> [rfl; (split <;> rfl)]
@[simp] theorem Via.tick_ca1 (v : Via) : (v.tick).ca1 = v.ca1 := by simp only [Via.tick]; split <;> [rfl; (split <;> rfl)]
@[simp] theorem Via.tick_ca2 (v : Via) : (v.tick).ca2 = v.ca2 := by simp only [Via.tick]; split <;> [rfl; (split <;> rfl)]
@[simp] theorem Via.tick_cb1 (v : Via) : (v.tick).cb1 = v.cb1 := by simp only [Via.tick]; split <;> [rfl; (split <;> rfl)]
@[simp] theorem Via.tick_cb2 (v : Via) : (v.tick).cb2 = v.cb2 := by simp only [Via.tick]; split <;> [rfl; (split <;> rfl)]

@[simp] theorem Via.ctrlIn_pb (v : Via) (l : CtrlLine) (t : Bool) : (v.ctrlIn l t).pb = v.pb := by
  unfold Via.ctrlIn
  repeat' split
  all_goals simp
@[simp] theorem Via.ctrlIn_pa (v : Via) (l : CtrlLine) (t : Bool) : (v.ctrlIn l t).pa = v.pa := by
  unfold Via.ctrlIn
  repeat' split
  all_goals simp
@[simp] theorem Via.ctrlIn_ddrb (v : Via) (l : CtrlLine) (t : Bool) : (v.ctrlIn l t).ddrb = v.ddrb := by
  unfold Via.ctrlIn
  repeat' split
  all_goals simp
@[simp] theorem Via.ctrlIn_ddra (v : Via) (l : CtrlLine) (t : Bool) : (v.ctrlIn l t).ddra = v.ddra := by
  unfold Via.ctrlIn
  repeat' split
  all_goals simp
@[simp] theorem Via.ctrlIn_t1ll (v : Via) (l : CtrlLine) (t : Bool) : (v.ctrlIn l t).t1ll = v.t1ll := by
  unfold Via.ctrlIn
  repeat' split
  all_goals simp
@[simp] theorem Via.ctrlIn_t1lh (v : Via) (l : CtrlLine) (t : Bool) : (v.ctrlIn l t).t1lh = v.t1lh := by
  unfold Via.ctrlIn
  repeat' split
  all_goals simp
@[simp] theorem Via.ctrlIn_t1c (v : Via) (l : CtrlLine) (t : Bool) : (v.ctrlIn l t).t1c = v.t1c := by
  unfold Via.ctrlIn
  repeat' split
  all_goals simp
@[simp] theorem Via.ctrlIn_acr (v : Via) (l : CtrlLine) (t : Bool) : (v.ctrlIn l t).acr = v.acr := by
  unfold Via.ctrlIn
  repeat' split
  all_goals simp
@[simp] theorem Via.ctrlIn_pcr (v : Via) (l : CtrlLine) (t : Bool) : (v.ctrlIn l t).pcr = v.pcr := by
  unfold Via.ctrlIn
  repeat' split
  all_goals simp
@[simp] theorem Via.ctrlIn_ie (v : Via) (l : CtrlLine) (t : Bool) : (v.ctrlIn l t).ie = v.ie := by
  unfold Via.ctrlIn
  repeat' split
  all_goals simp

@[simp] theorem driveWrite_ddrb (v : Via) (m : BusState) : (driveWrite v m).ddrb = v.ddrb := by simp [driveWrite]
@[simp] theorem driveWrite_ddra (v : Via) (m : BusState) : (driveWrite v m).ddra = v.ddra := by simp [driveWrite]
@[simp] theorem driveWrite_t1ll (v : Via) (m : BusState) : (driveWrite v m).t1ll = v.t1ll := by simp [driveWrite]
@[simp] theorem driveWrite_t1lh (v : Via) (m : BusState) : (driveWrite v m).t1lh = v.t1lh := by simp [driveWrite]
@[simp] theorem driveWrite_t1c (v : Via) (m : BusState) : (driveWrite v m).t1c = v.t1c := by simp [driveWrite]
@[simp] theorem driveWrite_acr (v : Via) (m : BusState) : (driveWrite v m).acr = v.acr := by simp [driveWrite]
@[simp] theorem driveWrite_pcr (v : Via) (m : BusState) : (driveWrite v m).pcr = v.pcr := by simp [driveWrite]
@[simp] theorem driveWrite_ie (v : Via) (m : BusState) : (driveWrite v m).ie = v.ie := by simp [driveWrite]

/-- What `CtrlIn` does to the stored levels: the line's own level, and only while it is in input mode. -/
theorem Via.ctrlIn_level (v : Via) (l j : CtrlLine) (t : Bool) :
    (v.ctrlIn l t).level j = if j = l ∧ v.inputMode l = true then t else v.level j := by
  unfold Via.ctrlIn
  cases h : v.inputMode l
  · simp
  · by_cases ht : t = v.level l
    · simp only [Bool.not_true, Bool.false_eq_true, ↓reduceIte, ht, and_true]
      split
      · next hj => rw [hj]
      · rfl
    · simp only [Bool.not_true, Bool.false_eq_true, ↓reduceIte, ht, and_true]
      split <;> cases j <;> cases l <;> rfl

/-- What `CtrlIn` does to the flags: it raises the line's flag on a matching edge of an input-mode line, and no other. -/
theorem Via.ctrlIn_flags (v : Via) (l : CtrlLine) (t : Bool) :
    (v.ctrlIn l t).ifr =
      if v.inputMode l = true ∧ t ≠ v.level l ∧ t = v.polarity l then setBit v.ifr (flagBit l) true else v.ifr := by
  unfold Via.ctrlIn Via.edgeMatches
  cases v.inputMode l <;> cases t <;> cases hl : v.level l <;> cases v.polarity l <;> cases l <;>
    simp_all [Via.raise, Via.setLevel]

/-- The clears of a port access, flag by flag. -/
theorem Via.clearPortFlags_flags (v : Via) (p : Port) (n : Nat) (h : n < 7) :
    bit (v.clearPortFlags p).ifr n = (bit v.ifr n && !(match p with
      | .a => n == 1 || (n == 0 && v.inputMode .ca2)
      | .b => n == 4 || (n == 3 && v.inputMode .cb2))) := by
  have h6 : n = 0 ∨ n = 1 ∨ n = 2 ∨ n = 3 ∨ n = 4 ∨ n = 5 ∨ n = 6 := by omega
  cases p <;> simp only [Via.clearPortFlags] <;> split <;> rename_i hm <;>
    rcases h6 with rfl | rfl | rfl | rfl | rfl | rfl | rfl <;> simp [hm, bit_setBit, flagBit]

/-- A tick, as one equation for the counter and one for the flags. -/
theorem Via.tick_t1c (v : Via) :
    v.tick.t1c = if v.t1c = 1#16 ∧ v.continuous = true then v.latches else if v.t1c = 0#16 then 0#16 else v.t1c - 1#16 := by
  unfold Via.tick
  by_cases h0 : v.t1c = 0#16
  · simp [h0]
  · by_cases h1 : v.t1c = 1#16
    · cases v.continuous <;> simp [h1]
    · have : v.t1c - 1#16 ≠ 0#16 := by
        intro h
        apply h1
        bv_omega
      simp [h0, h1, this]

/-- The flags after a tick: T1 is raised exactly when the counter stood at 1. -/
theorem Via.tick_ifr (v : Via) : v.tick.ifr = if v.t1c = 1#16 then setBit v.ifr t1Flag true else v.ifr := by
  unfold Via.tick
  by_cases h0 : v.t1c = 0#16
  · simp [h0]
  · by_cases h1 : v.t1c = 1#16
    · simp [h1]
    · have : v.t1c - 1#16 ≠ 0#16 := by
        intro h
        apply h1
        bv_omega
      simp [h0, h1, this]

end Sys2Proof.Machine
end

