-- ==== Sys2Proof/Laws/Connectors.lean ====
section
/-! SUPPORT. What the merge, the gate, the ports' inputs and the control lines do, bit by bit; a run of ticks; and the frames of a transaction from its equation. -/

namespace Sys2Proof.Machine

theorem mergeSignal_asserted_iff (a b : Signal) :
    mergeSignal a b = .asserted ↔ a = .asserted ∨ b = .asserted := by
  cases a <;> cases b <;> simp [mergeSignal]

theorem mergeSignal_ne_floating (a b : Signal) : mergeSignal a b ≠ .floating := by
  cases a <;> cases b <;> simp [mergeSignal]

theorem toTtl_eq_bne (x : Signal) : toTtl x = (x != .asserted) := by cases x <;> rfl

theorem not_bne_asserted (x : Signal) : (!(x != Signal.asserted)) = (x == .asserted) := by cases x <;> rfl

theorem Via.drivenByBit_asserted_iff (v : Via) (n : Nat) :
    v.drivenByBit n = .asserted ↔ bit v.ddrb n = true ∧ bit v.pb n = false := by
  unfold Via.drivenByBit fromTtl
  cases bit v.ddrb n <;> cases bit v.pb n <;> simp

theorem Via.gate_iff (v : Via) : v.gate = true ↔ (bit v.pb 0 && bit v.ddrb 0) ≠ v.ca1 := by
  simp [Via.gate, Via.portOut, Via.port, Via.direction]

/-- A delivery on Port B, bit by bit. -/
theorem Via.portIn_pb_bit (v : Via) (e : Byte) (n : Nat) (h : n < 8) :
    bit (v.portIn .b e).pb n = if bit v.ddrb n then bit v.pb n else bit e n := by
  cases h2 : bit v.ddrb n <;> simp_all [Via.portIn, Via.setPort, Via.port, Via.direction, bit_not _ _ h]

/-- A delivery on Port A, bit by bit. -/
theorem Via.portIn_pa_bit (v : Via) (e : Byte) (n : Nat) (h : n < 8) :
    bit (v.portIn .a e).pa n = if bit v.ddra n then bit v.pa n else bit e n := by
  cases h2 : bit v.ddra n <;> simp_all [Via.portIn, Via.setPort, Via.port, Via.direction, bit_not _ _ h]

@[simp] theorem Via.portIn_a_pb (v : Via) (e : Byte) : (v.portIn .a e).pb = v.pb := rfl
@[simp] theorem Via.portIn_b_pa (v : Via) (e : Byte) : (v.portIn .b e).pa = v.pa := rfl

/-- The flags after a delivery on a control line, bit by bit. -/
theorem Via.ctrlIn_flag_bit (v : Via) (l : CtrlLine) (t : Bool) (n : Nat) (hn : n < 7) :
    bit (v.ctrlIn l t).ifr n =
      (bit v.ifr n || (n == flagBit l && v.inputMode l && t != v.level l && t == v.polarity l)) := by
  rw [Via.ctrlIn_flags]
  by_cases hf : n = flagBit l
  · subst hf
    split
    · rename_i h
      obtain ⟨h1, h2, h3⟩ := h
      have h2 : (t != v.level l) = true := by simpa using h2
      have h3 : (t == v.polarity l) = true := by simpa using h3
      rw [bit_setBit_same _ _ _ hn, h1, h2, h3]
      simp
    · rename_i h
      have h4 : (v.inputMode l && t != v.level l && t == v.polarity l) = false := by
        cases h4 : (v.inputMode l && t != v.level l && t == v.polarity l)
        · rfl
        · simp at h4
          exact absurd ⟨h4.1.1, h4.1.2, h4.2⟩ h
      simp only [beq_self_eq_true, Bool.true_and, h4, Bool.or_false]
  · have h5 : (n == flagBit l) = false := by simpa using hf
    simp only [h5, Bool.false_and, Bool.or_false]
    split
    · rw [bit_setBit _ _ _ _ hn, if_neg hf]
    · rfl

/-- A run of `n` ticks of one VIA is its tick iterated. -/
theorem runInstrs_ticks (k : ViaId) (n : Nat) (s : State) :
    runInstrs (List.replicate n (.tick k)) s = .next (s.setVia (Via.tick^[n] (s.via k)) k) := by
  induction n generalizing s with
  | zero => cases k <;> rfl
  | succ n ih =>
    rw [List.replicate_succ, runInstrs_cons_of_next _ (exec_tick k s), ih]
    simp

/-- The frame of a transaction that replaces `via[k]`. -/
theorem changesVia_of_exec {i : Instr} {s : State} {k : ViaId} {v : Via} {P : Via → Prop}
    (h : exec i s = .next (s.setVia v k)) (hp : P v) : ChangesVia i s k P :=
  ⟨_, h, by simpa using hp, by simp⟩

/-- The frame of a transaction that replaces `via[k]` and hands a value back. -/
theorem readsVia_of_exec {i : Instr} {s : State} {k : ViaId} {v : Via} {r : Returned} {P : Via → Prop}
    (h : exec i s = .next ((s.setVia v k).returning r)) (hp : P v) : ReadsVia i s k r P :=
  ⟨_, h, by simpa using hp, by simp⟩

/-- A CPU read without a side effect answers and changes nothing of the block. -/
theorem answersOnly_of_cpuRead {i : Instr} {s : State} {k : ViaId} {r : Reg} (h : exec i s = .next (s.cpuRead k r))
    (hr : (s.via k).afterRead r = s.via k) : AnswersOnly i s (.byte ((s.via k).peek r)) := by
  unfold AnswersOnly
  rw [h, State.cpuRead, hr]
  cases k <;> rfl

end Sys2Proof.Machine
end

