-- ==== Sys2Proof/Laws/Encoding.lean ====
section
/-! SUPPORT. The fields of a transaction word as numbers, and a word from its fields (R80). -/

namespace Sys2Proof

/-- R80: `K` is bits 15:12, `S` bits 11:8, `D` bits 7:0. -/
theorem transactionWord_toNat (K S : BitVec 4) (D : Byte) :
    (transactionWord K S D).toNat = K.toNat * 4096 + S.toNat * 256 + D.toNat := by
  have h : (transactionWord K S D).toNat = ((K ++ S).toNat <<< 8) ||| D.toNat := BitVec.toNat_append (K ++ S) D
  have h2 : (K ++ S).toNat = (K.toNat <<< 4) ||| S.toNat := BitVec.toNat_append K S
  have hS := S.isLt
  have hD := D.isLt
  rw [← Nat.shiftLeft_add_eq_or_of_lt hD] at h
  rw [← Nat.shiftLeft_add_eq_or_of_lt hS] at h2
  rw [h, h2, Nat.shiftLeft_eq, Nat.shiftLeft_eq]
  omega

theorem kindOf_eq (w : Word) : kindOf w = w.toNat / 4096 := by
  have := w.isLt
  simp only [kindOf, BitVec.extractLsb'_toNat, Nat.shiftRight_eq_div_pow]
  omega

theorem selectorOf_eq (w : Word) : selectorOf w = w.toNat / 256 % 16 := by
  simp only [selectorOf, BitVec.extractLsb'_toNat, Nat.shiftRight_eq_div_pow]

theorem dataOf_toNat (w : Word) : (dataOf w).toNat = w.toNat % 256 := by
  simp only [dataOf, BitVec.extractLsb'_toNat, Nat.shiftRight_eq_div_pow]
  omega

theorem highHalf_toNat (w : Word) : (w.extractLsb' 8 8).toNat = w.toNat / 256 := by
  have := w.isLt
  simp only [BitVec.extractLsb'_toNat, Nat.shiftRight_eq_div_pow]
  omega

@[simp] theorem kindOf_transactionWord (K S : BitVec 4) (D : Byte) : kindOf (transactionWord K S D) = K.toNat := by
  have := S.isLt
  have := D.isLt
  rw [kindOf_eq, transactionWord_toNat]
  omega

@[simp] theorem selectorOf_transactionWord (K S : BitVec 4) (D : Byte) :
    selectorOf (transactionWord K S D) = S.toNat := by
  have := S.isLt
  have := D.isLt
  rw [selectorOf_eq, transactionWord_toNat]
  omega

@[simp] theorem dataOf_transactionWord (K S : BitVec 4) (D : Byte) : dataOf (transactionWord K S D) = D := by
  have := D.isLt
  apply BitVec.eq_of_toNat_eq
  rw [dataOf_toNat, transactionWord_toNat]
  omega

theorem highHalf_transactionWord (D : Byte) : (transactionWord 0x0#4 0x0#4 D).extractLsb' 8 8 = 0x00#8 := by
  have := D.isLt
  apply BitVec.eq_of_toNat_eq
  rw [highHalf_toNat, transactionWord_toNat]
  simp only [BitVec.toNat_ofNat]
  omega

/-- A word is fixed by its three fields. -/
theorem word_eq_of_fields (w : Word) (K S : BitVec 4) (D : Byte) (hK : kindOf w = K.toNat)
    (hS : selectorOf w = S.toNat) (hD : dataOf w = D) : w = transactionWord K S D := by
  apply BitVec.eq_of_toNat_eq
  have hDn := congrArg BitVec.toNat hD
  have := w.isLt
  rw [kindOf_eq] at hK
  rw [selectorOf_eq] at hS
  rw [dataOf_toNat] at hDn
  rw [transactionWord_toNat]
  omega

theorem kindOf_lt (w : Word) : kindOf w < 16 := (w.extractLsb' 12 4).isLt

theorem selectorOf_lt (w : Word) : selectorOf w < 16 := (w.extractLsb' 8 4).isLt

end Sys2Proof
end

