-- ==== Sys2Proof/Laws/PerInstr.lean ====
section
/-! SUPPORT. Statements made for every instruction, one lemma per constructor. -/

namespace Sys2Proof.Laws

/-- The mask and the match of the instruction's row in spec/opcode_table.json, for its first word (R81, R94). -/
def OpcodeRow.fixedBits : Instr → Word × Word
  | .rdPb _ => (0xFFFF#16, 0x0000#16)
  | .rdPa _ => (0xFFFF#16, 0x0100#16)
  | .rdDdrb _ => (0xFFFF#16, 0x0200#16)
  | .rdDdra _ => (0xFFFF#16, 0x0300#16)
  | .rdT1lo _ => (0xFFFF#16, 0x0400#16)
  | .rdT1hi _ => (0xFFFF#16, 0x0500#16)
  | .rdT1llo _ => (0xFFFF#16, 0x0600#16)
  | .rdT1lhi _ => (0xFFFF#16, 0x0700#16)
  | .rdU8 _ => (0xFFFF#16, 0x0800#16)
  | .rdU9 _ => (0xFFFF#16, 0x0900#16)
  | .rdUa _ => (0xFFFF#16, 0x0A00#16)
  | .rdAcr _ => (0xFFFF#16, 0x0B00#16)
  | .rdPcr _ => (0xFFFF#16, 0x0C00#16)
  | .rdIfr _ => (0xFFFF#16, 0x0D00#16)
  | .rdIe _ => (0xFFFF#16, 0x0E00#16)
  | .rdUf _ => (0xFFFF#16, 0x0F00#16)
  | .wrPb _ _ => (0xFF00#16, 0x1000#16)
  | .wrPa _ _ => (0xFF00#16, 0x1100#16)
  | .wrDdrb _ _ => (0xFF00#16, 0x1200#16)
  | .wrDdra _ _ => (0xFF00#16, 0x1300#16)
  | .wrT1lo _ _ => (0xFF00#16, 0x1400#16)
  | .wrT1hi _ _ => (0xFF00#16, 0x1500#16)
  | .wrT1llo _ _ => (0xFF00#16, 0x1600#16)
  | .wrT1lhi _ _ => (0xFF00#16, 0x1700#16)
  | .wrU8 _ _ => (0xFF00#16, 0x1800#16)
  | .wrU9 _ _ => (0xFF00#16, 0x1900#16)
  | .wrUa _ _ => (0xFF00#16, 0x1A00#16)
  | .wrAcr _ _ => (0xFF00#16, 0x1B00#16)
  | .wrPcr _ _ => (0xFF00#16, 0x1C00#16)
  | .wrIfr _ _ => (0xFF00#16, 0x1D00#16)
  | .wrIe _ _ => (0xFF00#16, 0x1E00#16)
  | .wrUf _ _ => (0xFF00#16, 0x1F00#16)
  | .peekPb _ => (0xFFFF#16, 0x2000#16)
  | .peekPa _ => (0xFFFF#16, 0x2100#16)
  | .peekDdrb _ => (0xFFFF#16, 0x2200#16)
  | .peekDdra _ => (0xFFFF#16, 0x2300#16)
  | .peekT1lo _ => (0xFFFF#16, 0x2400#16)
  | .peekT1hi _ => (0xFFFF#16, 0x2500#16)
  | .peekT1llo _ => (0xFFFF#16, 0x2600#16)
  | .peekT1lhi _ => (0xFFFF#16, 0x2700#16)
  | .peekU8 _ => (0xFFFF#16, 0x2800#16)
  | .peekU9 _ => (0xFFFF#16, 0x2900#16)
  | .peekUa _ => (0xFFFF#16, 0x2A00#16)
  | .peekAcr _ => (0xFFFF#16, 0x2B00#16)
  | .peekPcr _ => (0xFFFF#16, 0x2C00#16)
  | .peekIfr _ => (0xFFFF#16, 0x2D00#16)
  | .peekIe _ => (0xFFFF#16, 0x2E00#16)
  | .peekUf _ => (0xFFFF#16, 0x2F00#16)
  | .tick _ => (0xFFFF#16, 0x3000#16)
  | .ctrlinCa2 _ _ => (0xFFFE#16, 0x4000#16)
  | .ctrlinCa1 _ _ => (0xFFFE#16, 0x4100#16)
  | .ctrlinCb2 _ _ => (0xFFFE#16, 0x4300#16)
  | .ctrlinCb1 _ _ => (0xFFFE#16, 0x4400#16)
  | .ginB _ _ => (0xFF00#16, 0x5000#16)
  | .ginA _ _ => (0xFF00#16, 0x5100#16)
  | .goutB _ => (0xFFFF#16, 0x6000#16)
  | .goutA _ => (0xFFFF#16, 0x6100#16)
  | .ctrloutCa2 _ => (0xFFFF#16, 0x7000#16)
  | .ctrloutCb2 _ => (0xFFFF#16, 0x7300#16)
  | .chkirq _ => (0xFFFF#16, 0x8000#16)
  | .irqline => (0xFFFF#16, 0x8100#16)
  | .reset _ => (0xFFFF#16, 0x9000#16)
  | .sync => (0xFFFF#16, 0xA000#16)
  | .hsetDav _ => (0xFFFC#16, 0xB000#16)
  | .hsetEoi _ => (0xFFFC#16, 0xB100#16)
  | .hsetNdac _ => (0xFFFC#16, 0xB200#16)
  | .hsetNrfd _ => (0xFFFC#16, 0xB300#16)
  | .hsetSrq _ => (0xFFFC#16, 0xB400#16)
  | .hsetAtn _ => (0xFFFC#16, 0xB500#16)
  | .hsetRen _ => (0xFFFC#16, 0xB600#16)
  | .hsetIfc _ => (0xFFFC#16, 0xB700#16)
  | .hdio _ => (0xFF00#16, 0xB800#16)
  | .hreset => (0xFFFF#16, 0xB900#16)
  | .cmd _ _ => (0xFF00#16, 0xC000#16)
  | .readbyte => (0xFFFF#16, 0xD000#16)
  | .input _ _ => (0xFF00#16, 0xE000#16)

/-- The instruction's encoding begins with a word of its opcode-table row, has as many words as that row, and its second
word, where it has one, is 0x00 above its data byte (R81, R83, R87, R94). -/
def OpcodeRow.Statement (i : Instr) : Prop :=
  match encode i with
  | [w] => w &&& (OpcodeRow.fixedBits i).1 = (OpcodeRow.fixedBits i).2 ∧ wordCount w = 1
  | [w, w2] => w &&& (OpcodeRow.fixedBits i).1 = (OpcodeRow.fixedBits i).2 ∧ wordCount w = 2 ∧ w2 &&& 0xFF00#16 = 0x0000#16
  | _ => False

theorem OpcodeRow.rdPb (k : ViaId) : OpcodeRow.Statement (.rdPb k) := by
  cases k <;> exact ⟨by decide, by decide⟩
theorem OpcodeRow.rdPa (k : ViaId) : OpcodeRow.Statement (.rdPa k) := by
  cases k <;> exact ⟨by decide, by decide⟩
theorem OpcodeRow.rdDdrb (k : ViaId) : OpcodeRow.Statement (.rdDdrb k) := by
  cases k <;> exact ⟨by decide, by decide⟩
theorem OpcodeRow.rdDdra (k : ViaId) : OpcodeRow.Statement (.rdDdra k) := by
  cases k <;> exact ⟨by decide, by decide⟩
theorem OpcodeRow.rdT1lo (k : ViaId) : OpcodeRow.Statement (.rdT1lo k) := by
  cases k <;> exact ⟨by decide, by decide⟩
theorem OpcodeRow.rdT1hi (k : ViaId) : OpcodeRow.Statement (.rdT1hi k) := by
  cases k <;> exact ⟨by decide, by decide⟩
theorem OpcodeRow.rdT1llo (k : ViaId) : OpcodeRow.Statement (.rdT1llo k) := by
  cases k <;> exact ⟨by decide, by decide⟩
theorem OpcodeRow.rdT1lhi (k : ViaId) : OpcodeRow.Statement (.rdT1lhi k) := by
  cases k <;> exact ⟨by decide, by decide⟩
theorem OpcodeRow.rdU8 (k : ViaId) : OpcodeRow.Statement (.rdU8 k) := by
  cases k <;> exact ⟨by decide, by decide⟩
theorem OpcodeRow.rdU9 (k : ViaId) : OpcodeRow.Statement (.rdU9 k) := by
  cases k <;> exact ⟨by decide, by decide⟩
theorem OpcodeRow.rdUa (k : ViaId) : OpcodeRow.Statement (.rdUa k) := by
  cases k <;> exact ⟨by decide, by decide⟩
theorem OpcodeRow.rdAcr (k : ViaId) : OpcodeRow.Statement (.rdAcr k) := by
  cases k <;> exact ⟨by decide, by decide⟩
theorem OpcodeRow.rdPcr (k : ViaId) : OpcodeRow.Statement (.rdPcr k) := by
  cases k <;> exact ⟨by decide, by decide⟩
theorem OpcodeRow.rdIfr (k : ViaId) : OpcodeRow.Statement (.rdIfr k) := by
  cases k <;> exact ⟨by decide, by decide⟩
theorem OpcodeRow.rdIe (k : ViaId) : OpcodeRow.Statement (.rdIe k) := by
  cases k <;> exact ⟨by decide, by decide⟩
theorem OpcodeRow.rdUf (k : ViaId) : OpcodeRow.Statement (.rdUf k) := by
  cases k <;> exact ⟨by decide, by decide⟩
theorem OpcodeRow.wrPb (k : ViaId) (d : Byte) : OpcodeRow.Statement (.wrPb k d) := by
  revert d
  show ∀ x : Byte, transactionWord 0x1#4 0x0#4 x &&& 0xFF00#16 = 0x1000#16 ∧ wordCount (transactionWord 0x1#4 0x0#4 x) = 1
  decide
theorem OpcodeRow.wrPa (k : ViaId) (d : Byte) : OpcodeRow.Statement (.wrPa k d) := by
  revert d
  show ∀ x : Byte, transactionWord 0x1#4 0x1#4 x &&& 0xFF00#16 = 0x1100#16 ∧ wordCount (transactionWord 0x1#4 0x1#4 x) = 1
  decide
theorem OpcodeRow.wrDdrb (k : ViaId) (d : Byte) : OpcodeRow.Statement (.wrDdrb k d) := by
  revert d
  show ∀ x : Byte, transactionWord 0x1#4 0x2#4 x &&& 0xFF00#16 = 0x1200#16 ∧ wordCount (transactionWord 0x1#4 0x2#4 x) = 1
  decide
theorem OpcodeRow.wrDdra (k : ViaId) (d : Byte) : OpcodeRow.Statement (.wrDdra k d) := by
  revert d
  show ∀ x : Byte, transactionWord 0x1#4 0x3#4 x &&& 0xFF00#16 = 0x1300#16 ∧ wordCount (transactionWord 0x1#4 0x3#4 x) = 1
  decide
theorem OpcodeRow.wrT1lo (k : ViaId) (d : Byte) : OpcodeRow.Statement (.wrT1lo k d) := by
  revert d
  show ∀ x : Byte, transactionWord 0x1#4 0x4#4 x &&& 0xFF00#16 = 0x1400#16 ∧ wordCount (transactionWord 0x1#4 0x4#4 x) = 1
  decide
theorem OpcodeRow.wrT1hi (k : ViaId) (d : Byte) : OpcodeRow.Statement (.wrT1hi k d) := by
  revert d
  show ∀ x : Byte, transactionWord 0x1#4 0x5#4 x &&& 0xFF00#16 = 0x1500#16 ∧ wordCount (transactionWord 0x1#4 0x5#4 x) = 1
  decide
theorem OpcodeRow.wrT1llo (k : ViaId) (d : Byte) : OpcodeRow.Statement (.wrT1llo k d) := by
  revert d
  show ∀ x : Byte, transactionWord 0x1#4 0x6#4 x &&& 0xFF00#16 = 0x1600#16 ∧ wordCount (transactionWord 0x1#4 0x6#4 x) = 1
  decide
theorem OpcodeRow.wrT1lhi (k : ViaId) (d : Byte) : OpcodeRow.Statement (.wrT1lhi k d) := by
  revert d
  show ∀ x : Byte, transactionWord 0x1#4 0x7#4 x &&& 0xFF00#16 = 0x1700#16 ∧ wordCount (transactionWord 0x1#4 0x7#4 x) = 1
  decide
theorem OpcodeRow.wrU8 (k : ViaId) (d : Byte) : OpcodeRow.Statement (.wrU8 k d) := by
  revert d
  show ∀ x : Byte, transactionWord 0x1#4 0x8#4 x &&& 0xFF00#16 = 0x1800#16 ∧ wordCount (transactionWord 0x1#4 0x8#4 x) = 1
  decide
theorem OpcodeRow.wrU9 (k : ViaId) (d : Byte) : OpcodeRow.Statement (.wrU9 k d) := by
  revert d
  show ∀ x : Byte, transactionWord 0x1#4 0x9#4 x &&& 0xFF00#16 = 0x1900#16 ∧ wordCount (transactionWord 0x1#4 0x9#4 x) = 1
  decide
theorem OpcodeRow.wrUa (k : ViaId) (d : Byte) : OpcodeRow.Statement (.wrUa k d) := by
  revert d
  show ∀ x : Byte, transactionWord 0x1#4 0xA#4 x &&& 0xFF00#16 = 0x1A00#16 ∧ wordCount (transactionWord 0x1#4 0xA#4 x) = 1
  decide
theorem OpcodeRow.wrAcr (k : ViaId) (d : Byte) : OpcodeRow.Statement (.wrAcr k d) := by
  revert d
  show ∀ x : Byte, transactionWord 0x1#4 0xB#4 x &&& 0xFF00#16 = 0x1B00#16 ∧ wordCount (transactionWord 0x1#4 0xB#4 x) = 1
  decide
theorem OpcodeRow.wrPcr (k : ViaId) (d : Byte) : OpcodeRow.Statement (.wrPcr k d) := by
  revert d
  show ∀ x : Byte, transactionWord 0x1#4 0xC#4 x &&& 0xFF00#16 = 0x1C00#16 ∧ wordCount (transactionWord 0x1#4 0xC#4 x) = 1
  decide
theorem OpcodeRow.wrIfr (k : ViaId) (d : Byte) : OpcodeRow.Statement (.wrIfr k d) := by
  revert d
  show ∀ x : Byte, transactionWord 0x1#4 0xD#4 x &&& 0xFF00#16 = 0x1D00#16 ∧ wordCount (transactionWord 0x1#4 0xD#4 x) = 1
  decide
theorem OpcodeRow.wrIe (k : ViaId) (d : Byte) : OpcodeRow.Statement (.wrIe k d) := by
  revert d
  show ∀ x : Byte, transactionWord 0x1#4 0xE#4 x &&& 0xFF00#16 = 0x1E00#16 ∧ wordCount (transactionWord 0x1#4 0xE#4 x) = 1
  decide
theorem OpcodeRow.wrUf (k : ViaId) (d : Byte) : OpcodeRow.Statement (.wrUf k d) := by
  revert d
  show ∀ x : Byte, transactionWord 0x1#4 0xF#4 x &&& 0xFF00#16 = 0x1F00#16 ∧ wordCount (transactionWord 0x1#4 0xF#4 x) = 1
  decide
theorem OpcodeRow.peekPb (k : ViaId) : OpcodeRow.Statement (.peekPb k) := by
  cases k <;> exact ⟨by decide, by decide⟩
theorem OpcodeRow.peekPa (k : ViaId) : OpcodeRow.Statement (.peekPa k) := by
  cases k <;> exact ⟨by decide, by decide⟩
theorem OpcodeRow.peekDdrb (k : ViaId) : OpcodeRow.Statement (.peekDdrb k) := by
  cases k <;> exact ⟨by decide, by decide⟩
theorem OpcodeRow.peekDdra (k : ViaId) : OpcodeRow.Statement (.peekDdra k) := by
  cases k <;> exact ⟨by decide, by decide⟩
theorem OpcodeRow.peekT1lo (k : ViaId) : OpcodeRow.Statement (.peekT1lo k) := by
  cases k <;> exact ⟨by decide, by decide⟩
theorem OpcodeRow.peekT1hi (k : ViaId) : OpcodeRow.Statement (.peekT1hi k) := by
  cases k <;> exact ⟨by decide, by decide⟩
theorem OpcodeRow.peekT1llo (k : ViaId) : OpcodeRow.Statement (.peekT1llo k) := by
  cases k <;> exact ⟨by decide, by decide⟩
theorem OpcodeRow.peekT1lhi (k : ViaId) : OpcodeRow.Statement (.peekT1lhi k) := by
  cases k <;> exact ⟨by decide, by decide⟩
theorem OpcodeRow.peekU8 (k : ViaId) : OpcodeRow.Statement (.peekU8 k) := by
  cases k <;> exact ⟨by decide, by decide⟩
theorem OpcodeRow.peekU9 (k : ViaId) : OpcodeRow.Statement (.peekU9 k) := by
  cases k <;> exact ⟨by decide, by decide⟩
theorem OpcodeRow.peekUa (k : ViaId) : OpcodeRow.Statement (.peekUa k) := by
  cases k <;> exact ⟨by decide, by decide⟩
theorem OpcodeRow.peekAcr (k : ViaId) : OpcodeRow.Statement (.peekAcr k) := by
  cases k <;> exact ⟨by decide, by decide⟩
theorem OpcodeRow.peekPcr (k : ViaId) : OpcodeRow.Statement (.peekPcr k) := by
  cases k <;> exact ⟨by decide, by decide⟩
theorem OpcodeRow.peekIfr (k : ViaId) : OpcodeRow.Statement (.peekIfr k) := by
  cases k <;> exact ⟨by decide, by decide⟩
theorem OpcodeRow.peekIe (k : ViaId) : OpcodeRow.Statement (.peekIe k) := by
  cases k <;> exact ⟨by decide, by decide⟩
theorem OpcodeRow.peekUf (k : ViaId) : OpcodeRow.Statement (.peekUf k) := by
  cases k <;> exact ⟨by decide, by decide⟩
theorem OpcodeRow.tick (k : ViaId) : OpcodeRow.Statement (.tick k) := by
  cases k <;> exact ⟨by decide, by decide⟩
theorem OpcodeRow.ctrlinCa2 (k : ViaId) (t : Bool) : OpcodeRow.Statement (.ctrlinCa2 k t) := by
  cases k <;> cases t <;> exact ⟨by decide, by decide⟩
theorem OpcodeRow.ctrlinCa1 (k : ViaId) (t : Bool) : OpcodeRow.Statement (.ctrlinCa1 k t) := by
  cases k <;> cases t <;> exact ⟨by decide, by decide⟩
theorem OpcodeRow.ctrlinCb2 (k : ViaId) (t : Bool) : OpcodeRow.Statement (.ctrlinCb2 k t) := by
  cases k <;> cases t <;> exact ⟨by decide, by decide⟩
theorem OpcodeRow.ctrlinCb1 (k : ViaId) (t : Bool) : OpcodeRow.Statement (.ctrlinCb1 k t) := by
  cases k <;> cases t <;> exact ⟨by decide, by decide⟩
theorem OpcodeRow.ginB (k : ViaId) (e : Byte) : OpcodeRow.Statement (.ginB k e) := by
  revert e
  show ∀ x : Byte, transactionWord 0x5#4 0x0#4 x &&& 0xFF00#16 = 0x5000#16 ∧ wordCount (transactionWord 0x5#4 0x0#4 x) = 1
  decide
theorem OpcodeRow.ginA (k : ViaId) (e : Byte) : OpcodeRow.Statement (.ginA k e) := by
  revert e
  show ∀ x : Byte, transactionWord 0x5#4 0x1#4 x &&& 0xFF00#16 = 0x5100#16 ∧ wordCount (transactionWord 0x5#4 0x1#4 x) = 1
  decide
theorem OpcodeRow.goutB (k : ViaId) : OpcodeRow.Statement (.goutB k) := by
  cases k <;> exact ⟨by decide, by decide⟩
theorem OpcodeRow.goutA (k : ViaId) : OpcodeRow.Statement (.goutA k) := by
  cases k <;> exact ⟨by decide, by decide⟩
theorem OpcodeRow.ctrloutCa2 (k : ViaId) : OpcodeRow.Statement (.ctrloutCa2 k) := by
  cases k <;> exact ⟨by decide, by decide⟩
theorem OpcodeRow.ctrloutCb2 (k : ViaId) : OpcodeRow.Statement (.ctrloutCb2 k) := by
  cases k <;> exact ⟨by decide, by decide⟩
theorem OpcodeRow.chkirq (k : ViaId) : OpcodeRow.Statement (.chkirq k) := by
  cases k <;> exact ⟨by decide, by decide⟩
theorem OpcodeRow.irqline : OpcodeRow.Statement (.irqline) := ⟨by decide, by decide⟩
theorem OpcodeRow.reset (k : ViaId) : OpcodeRow.Statement (.reset k) := by
  cases k <;> exact ⟨by decide, by decide⟩
theorem OpcodeRow.sync : OpcodeRow.Statement (.sync) := ⟨by decide, by decide⟩
theorem OpcodeRow.hsetDav (sig : Signal) : OpcodeRow.Statement (.hsetDav sig) := by
  cases sig <;> exact ⟨by decide, by decide⟩
theorem OpcodeRow.hsetEoi (sig : Signal) : OpcodeRow.Statement (.hsetEoi sig) := by
  cases sig <;> exact ⟨by decide, by decide⟩
theorem OpcodeRow.hsetNdac (sig : Signal) : OpcodeRow.Statement (.hsetNdac sig) := by
  cases sig <;> exact ⟨by decide, by decide⟩
theorem OpcodeRow.hsetNrfd (sig : Signal) : OpcodeRow.Statement (.hsetNrfd sig) := by
  cases sig <;> exact ⟨by decide, by decide⟩
theorem OpcodeRow.hsetSrq (sig : Signal) : OpcodeRow.Statement (.hsetSrq sig) := by
  cases sig <;> exact ⟨by decide, by decide⟩
theorem OpcodeRow.hsetAtn (sig : Signal) : OpcodeRow.Statement (.hsetAtn sig) := by
  cases sig <;> exact ⟨by decide, by decide⟩
theorem OpcodeRow.hsetRen (sig : Signal) : OpcodeRow.Statement (.hsetRen sig) := by
  cases sig <;> exact ⟨by decide, by decide⟩
theorem OpcodeRow.hsetIfc (sig : Signal) : OpcodeRow.Statement (.hsetIfc sig) := by
  cases sig <;> exact ⟨by decide, by decide⟩
theorem OpcodeRow.hdio (b : Byte) : OpcodeRow.Statement (.hdio b) := by
  revert b
  show ∀ x : Byte, transactionWord 0xB#4 0x8#4 x &&& 0xFF00#16 = 0xB800#16 ∧ wordCount (transactionWord 0xB#4 0x8#4 x) = 1
  decide
theorem OpcodeRow.hreset : OpcodeRow.Statement (.hreset) := ⟨by decide, by decide⟩
theorem OpcodeRow.cmd (p s : Byte) : OpcodeRow.Statement (.cmd p s) := by
  have h1 : ∀ p : Byte, (transactionWord 0xC#4 0x0#4 p &&& 0xFF00#16 = 0xC000#16 ∧ wordCount (transactionWord 0xC#4 0x0#4 p) = 2) := by decide
  have h2 : ∀ s : Byte, transactionWord 0x0#4 0x0#4 s &&& 0xFF00#16 = 0x0000#16 := by decide
  exact ⟨(h1 p).1, (h1 p).2, h2 s⟩
theorem OpcodeRow.readbyte : OpcodeRow.Statement (.readbyte) := ⟨by decide, by decide⟩
theorem OpcodeRow.input (p s : Byte) : OpcodeRow.Statement (.input p s) := by
  have h1 : ∀ p : Byte, (transactionWord 0xE#4 0x0#4 p &&& 0xFF00#16 = 0xE000#16 ∧ wordCount (transactionWord 0xE#4 0x0#4 p) = 2) := by decide
  have h2 : ∀ s : Byte, transactionWord 0x0#4 0x0#4 s &&& 0xFF00#16 = 0x0000#16 := by decide
  exact ⟨(h1 p).1, (h1 p).2, h2 s⟩

end Sys2Proof.Laws
end

