-- ==== Sys2Proof/Tests/Slice0.lean ====
section
/-! SUPPORT. Tests: expected values from the tables of spec/95_test_vectors.md (their row names stand in the comments) and words written out from spec/30_encoding.md; after them, a witness for the hypotheses of every statement that has some. -/

namespace Sys2Proof.Tests

open Sys2Proof.Machine

/-! ## Well-formedness: each clause of R87 refuses an ill-formed word, and the decoder refuses it by name. -/

/-- Does the decoder refuse the words with that error? -/
def refuses (ws : List Word) (e : DecodeError) : Bool :=
  match decode .via1 ws with
  | .ok _ => false
  | .error e' => decide (e' = e)

/-- Is the word refused by one clause, and so by `startsTransaction`, and by the decoder? -/
def refusedBy (clause : Word → Bool) (w : Word) (e : DecodeError) : Bool :=
  clause w && !WellFormed.startsTransaction [w, 0x00FF#16] && refuses [w, 0x00FF#16] e

theorem test_wf_reservedKind : refusedBy WellFormed.reservedKind 0xF000#16 (.reservedKind 0xF000#16) = true := by decide

theorem test_wf_readWithData : (refusedBy WellFormed.readWithData 0x0D01#16 (.dataNotZero 0x0D01#16) &&
    refusedBy WellFormed.readWithData 0x2F80#16 (.dataNotZero 0x2F80#16)) = true := by decide

theorem test_wf_plainWithOperand : (refusedBy WellFormed.plainWithOperand 0x3001#16 (.dataNotZero 0x3001#16) &&
    refusedBy WellFormed.plainWithOperand 0x3100#16 (.reservedSelector 0x3100#16) &&
    refusedBy WellFormed.plainWithOperand 0xD100#16 (.reservedSelector 0xD100#16)) = true := by decide

theorem test_wf_badControlInput : (refusedBy WellFormed.badControlInput 0x4200#16 (.reservedSelector 0x4200#16) &&
    refusedBy WellFormed.badControlInput 0x4102#16 (.reservedData 0x4102#16)) = true := by decide

theorem test_wf_badPortInput : refusedBy WellFormed.badPortInput 0x52A5#16 (.reservedSelector 0x52A5#16) = true := by decide

theorem test_wf_badPortOutput : refusedBy WellFormed.badPortOutput 0x6101#16 (.dataNotZero 0x6101#16) = true := by decide

theorem test_wf_badControlOutput :
    refusedBy WellFormed.badControlOutput 0x7100#16 (.reservedSelector 0x7100#16) = true := by decide

theorem test_wf_badInterruptQuery :
    refusedBy WellFormed.badInterruptQuery 0x8200#16 (.reservedSelector 0x8200#16) = true := by decide

theorem test_wf_badHostWrite : (refusedBy WellFormed.badHostWrite 0xB503#16 (.reservedData 0xB503#16) &&
    refusedBy WellFormed.badHostWrite 0xB901#16 (.dataNotZero 0xB901#16) &&
    refusedBy WellFormed.badHostWrite 0xBA00#16 (.reservedSelector 0xBA00#16)) = true := by decide

theorem test_wf_badSequenceSelector :
    refusedBy WellFormed.badSequenceSelector 0xC108#16 (.reservedSelector 0xC108#16) = true := by decide

theorem test_wf_reservedSecondWord : (WellFormed.reservedSecondWord 0x01FF#16 &&
    !WellFormed.startsTransaction [0xC008#16, 0x01FF#16] &&
    refuses [0xC008#16, 0x01FF#16] (.reservedSecondWord 0x01FF#16)) = true := by decide

theorem test_wf_twoWords : (WellFormed.twoWords 0xC008#16 && !WellFormed.startsTransaction [0xC008#16] &&
    refuses [0xC008#16] (.missingSecondWord 0xC008#16) && refuses [] .noWord) = true := by decide

theorem test_wf_legal : ([[0x0D00#16], [0x1E82#16], [0x8100#16], [0xB702#16], [0xC008#16, 0x00FF#16]].all
    WellFormed.startsTransaction) = true := by decide

/-! ## Decoding: every constructor's word, written out from the tables of R81 to R86. -/

/-- Does each list of words decode to its instruction at `via[1]`, leaving the word put after it? -/
def decodesTo (rows : List (List Word × Instr)) : Bool :=
  rows.all fun (ws, i) =>
    match decode .via1 (ws ++ [0x3000#16]) with
    | .ok (j, rest) => decide (j = i ∧ rest = [0x3000#16])
    | .error _ => false

/-- Kind 0x0: `S` is the register offset, `D` is 0. -/
theorem test_decode_reads : decodesTo
    [([0x0000#16], .rdPb .via1), ([0x0100#16], .rdPa .via1), ([0x0200#16], .rdDdrb .via1), ([0x0300#16], .rdDdra .via1),
     ([0x0400#16], .rdT1lo .via1), ([0x0500#16], .rdT1hi .via1), ([0x0600#16], .rdT1llo .via1),
     ([0x0700#16], .rdT1lhi .via1), ([0x0800#16], .rdU8 .via1), ([0x0900#16], .rdU9 .via1), ([0x0A00#16], .rdUa .via1),
     ([0x0B00#16], .rdAcr .via1), ([0x0C00#16], .rdPcr .via1), ([0x0D00#16], .rdIfr .via1), ([0x0E00#16], .rdIe .via1),
     ([0x0F00#16], .rdUf .via1)] = true := by decide

/-- Kind 0x1: `S` is the register offset, `D` the byte. -/
theorem test_decode_writes : decodesTo
    [([0x1035#16], .wrPb .via1 0x35#8), ([0x11B7#16], .wrPa .via1 0xB7#8), ([0x1201#16], .wrDdrb .via1 0x01#8),
     ([0x13FF#16], .wrDdra .via1 0xFF#8), ([0x1410#16], .wrT1lo .via1 0x10#8), ([0x1512#16], .wrT1hi .via1 0x12#8),
     ([0x1620#16], .wrT1llo .via1 0x20#8), ([0x1701#16], .wrT1lhi .via1 0x01#8), ([0x18FF#16], .wrU8 .via1 0xFF#8),
     ([0x1980#16], .wrU9 .via1 0x80#8), ([0x1A01#16], .wrUa .via1 0x01#8), ([0x1BFF#16], .wrAcr .via1 0xFF#8),
     ([0x1C0C#16], .wrPcr .via1 0x0C#8), ([0x1D02#16], .wrIfr .via1 0x02#8), ([0x1E82#16], .wrIe .via1 0x82#8),
     ([0x1F7F#16], .wrUf .via1 0x7F#8)] = true := by decide

/-- Kind 0x2: `S` is the register offset, `D` is 0. -/
theorem test_decode_peeks : decodesTo
    [([0x2000#16], .peekPb .via1), ([0x2100#16], .peekPa .via1), ([0x2200#16], .peekDdrb .via1),
     ([0x2300#16], .peekDdra .via1), ([0x2400#16], .peekT1lo .via1), ([0x2500#16], .peekT1hi .via1),
     ([0x2600#16], .peekT1llo .via1), ([0x2700#16], .peekT1lhi .via1), ([0x2800#16], .peekU8 .via1),
     ([0x2900#16], .peekU9 .via1), ([0x2A00#16], .peekUa .via1), ([0x2B00#16], .peekAcr .via1),
     ([0x2C00#16], .peekPcr .via1), ([0x2D00#16], .peekIfr .via1), ([0x2E00#16], .peekIe .via1),
     ([0x2F00#16], .peekUf .via1)] = true := by decide

/-- Kinds 0x3 to 0xA (R84, R85). -/
theorem test_decode_via : decodesTo
    [([0x3000#16], .tick .via1), ([0x4001#16], .ctrlinCa2 .via1 true), ([0x4100#16], .ctrlinCa1 .via1 false),
     ([0x4301#16], .ctrlinCb2 .via1 true), ([0x4400#16], .ctrlinCb1 .via1 false), ([0x50CE#16], .ginB .via1 0xCE#8),
     ([0x51A5#16], .ginA .via1 0xA5#8), ([0x6000#16], .goutB .via1), ([0x6100#16], .goutA .via1),
     ([0x7000#16], .ctrloutCa2 .via1), ([0x7300#16], .ctrloutCb2 .via1), ([0x8000#16], .chkirq .via1),
     ([0x8100#16], .irqline), ([0x9000#16], .reset .via1), ([0xA000#16], .sync)] = true := by decide

/-- Kind 0xB (R86). -/
theorem test_decode_host : decodesTo
    [([0xB000#16], .hsetDav .asserted), ([0xB101#16], .hsetEoi .negated), ([0xB202#16], .hsetNdac .floating),
     ([0xB300#16], .hsetNrfd .asserted), ([0xB401#16], .hsetSrq .negated), ([0xB500#16], .hsetAtn .asserted),
     ([0xB602#16], .hsetRen .floating), ([0xB701#16], .hsetIfc .negated), ([0xB848#16], .hdio 0x48#8),
     ([0xB900#16], .hreset)] = true := by decide

/-- Kinds 0xC, 0xD and 0xE (R83). -/
theorem test_decode_sequences : decodesTo
    [([0xC008#16, 0x00FF#16], .cmd 0x08#8 0xFF#8), ([0xD000#16], .readbyte),
     ([0xE00A#16, 0x006F#16], .input 0x0A#8 0x6F#8)] = true := by decide

/-! ## The instructions, one step each, from small states of spec/95. -/

/-- What a test looks at after one instruction. -/
def seen {α : Type} (i : Instr) (s : State) (f : State → α) : Option α :=
  match exec i s with
  | .next t => some (f t)
  | .fault _ => none
  | .refused _ => none

/-- The state at process start with another `via[0]`. -/
def withVia0 (v : Via) : State := { State.reset with via0 := v }

/-- The start state of RD1 to RD16. -/
def readStart : Via :=
  { Via.reset with
    pb := 0x81#8, pa := 0x3C#8, ddrb := 0x0F#8, ddra := 0xF0#8, t1c := 0x0123#16, t1ll := 0x10#8, t1lh := 0x02#8
    acr := 0x40#8, ifr := 0x5B#7 }

/-- The returned byte and the stored flags of `via[0]`. -/
def byteAndFlags (s : State) : Returned × BitVec 7 := (s.io.ret, s.via0.ifr)

/-- RD1 and RD1b. -/
theorem test_rdPb : seen (.rdPb .via0) (withVia0 readStart) byteAndFlags = some (.byte 0x81#8, 0x43#7) := by decide
theorem test_rdPb_cb2Output : seen (.rdPb .via0) (withVia0 { readStart with pcr := 0x80#8 }) byteAndFlags =
    some (.byte 0x81#8, 0x4B#7) := by decide

/-- RD2 and RD3. -/
theorem test_rdPa : seen (.rdPa .via0) (withVia0 readStart) byteAndFlags = some (.byte 0x3C#8, 0x58#7) := by decide
theorem test_rdPa_ca2Output : seen (.rdPa .via0) (withVia0 { readStart with pcr := 0x08#8 }) byteAndFlags =
    some (.byte 0x3C#8, 0x59#7) := by decide

/-- RD4 to RD14 and RD16: each returned byte, with no flag moved but RD6's. -/
theorem test_rd_others :
    [Instr.rdDdrb .via0, .rdDdra .via0, .rdT1lo .via0, .rdT1hi .via0, .rdT1llo .via0, .rdT1lhi .via0, .rdU8 .via0,
     .rdU9 .via0, .rdUa .via0, .rdUf .via0, .rdAcr .via0, .rdPcr .via0, .rdIfr .via0].map
      (fun i => seen i (withVia0 readStart) byteAndFlags) =
    [some (.byte 0x0F#8, 0x5B#7), some (.byte 0xF0#8, 0x5B#7), some (.byte 0x23#8, 0x1B#7), some (.byte 0x01#8, 0x5B#7),
     some (.byte 0x10#8, 0x5B#7), some (.byte 0x02#8, 0x5B#7), some (.byte 0x00#8, 0x5B#7), some (.byte 0x00#8, 0x5B#7),
     some (.byte 0x00#8, 0x5B#7), some (.byte 0x00#8, 0x5B#7), some (.byte 0x40#8, 0x5B#7), some (.byte 0x00#8, 0x5B#7),
     some (.byte 0x5B#8, 0x5B#7)] := by decide

/-- RD15 and RD16. -/
theorem test_rdIfr_irq : seen (.rdIfr .via0) (withVia0 { readStart with ie := 0x40#7 }) byteAndFlags =
    some (.byte 0xDB#8, 0x5B#7) := by decide
theorem test_rdIe : seen (.rdIe .via0) (withVia0 { readStart with ie := 0x7F#7 }) byteAndFlags =
    some (.byte 0x7F#8, 0x5B#7) := by decide

/-- WR1, WR1b. -/
theorem test_wrPb : seen (.wrPb .via0 0x35#8) (withVia0 { Via.reset with pb := 0xC0#8, ddrb := 0x0F#8, ifr := 0x18#7 })
    (fun s => (s.via0.pb, s.via0.ifr)) = some (0xC5#8, 0x00#7) := by decide
theorem test_wrPb_inputs : seen (.wrPb .via0 0xFF#8) (withVia0 { Via.reset with pb := 0xC0#8 }) (·.via0.pb) =
    some 0xC0#8 := by decide

/-- WR2, WR3. -/
theorem test_wrPa : seen (.wrPa .via0 0xB7#8) (withVia0 { Via.reset with ddra := 0xFF#8, ifr := 0x03#7 })
    (fun s => (s.via0.pa, s.via0.ifr)) = some (0xB7#8, 0x00#7) := by decide
theorem test_wrPa_ca2Output : seen (.wrPa .via0 0xB7#8)
    (withVia0 { Via.reset with ddra := 0xFF#8, ifr := 0x03#7, pcr := 0x0C#8 })
    (fun s => (s.via0.pa, s.via0.ifr)) = some (0xB7#8, 0x01#7) := by decide

/-- WR4, WR5. -/
theorem test_wrDdrb : seen (.wrDdrb .via0 0x01#8) (withVia0 { Via.reset with pb := 0xCE#8 })
    (fun s => (s.via0.ddrb, s.via0.pb, s.via0.portOut .b)) = some (0x01#8, 0xCE#8, 0x00#8) := by decide
theorem test_wrDdra : seen (.wrDdra .via0 0xFF#8) (withVia0 { Via.reset with pa := 0xB7#8 })
    (fun s => (s.via0.ddra, s.via0.portOut .a)) = some (0xFF#8, 0xB7#8) := by decide

/-- The low latch, the high latch, the counter and the flags. -/
def timer (s : State) : Byte × Byte × Word × BitVec 7 := (s.via0.t1ll, s.via0.t1lh, s.via0.t1c, s.via0.ifr)

/-- WR6 to WR9. -/
theorem test_wrT1lo : seen (.wrT1lo .via0 0x10#8) (withVia0 { Via.reset with t1c := 5, ifr := 0x40#7 }) timer =
    some (0x10#8, 0x00#8, 0x0005#16, 0x40#7) := by decide
theorem test_wrT1hi_zero : seen (.wrT1hi .via0 0x00#8) (withVia0 { Via.reset with t1ll := 0x10#8, ifr := 0x40#7 }) timer =
    some (0x10#8, 0x00#8, 0x0010#16, 0x00#7) := by decide
theorem test_wrT1hi : seen (.wrT1hi .via0 0x12#8) (withVia0 { Via.reset with t1ll := 0x34#8 }) timer =
    some (0x34#8, 0x12#8, 0x1234#16, 0x00#7) := by decide
theorem test_wrT1llo : seen (.wrT1llo .via0 0x20#8) (withVia0 { Via.reset with t1c := 3 }) timer =
    some (0x20#8, 0x00#8, 0x0003#16, 0x00#7) := by decide
theorem test_wrT1lhi : seen (.wrT1lhi .via0 0x01#8) (withVia0 { Via.reset with t1c := 3, ifr := 0x40#7 }) timer =
    some (0x00#8, 0x01#8, 0x0003#16, 0x00#7) := by decide

/-- WR10: no change anywhere. -/
theorem test_wr_undefined : [Instr.wrU8 .via0 0xFF#8, .wrU9 .via0 0xFF#8, .wrUa .via0 0xFF#8, .wrUf .via0 0xFF#8].all
    (fun i => decide (seen i (withVia0 readStart) id = some (withVia0 readStart))) = true := by decide

/-- WR11, WR12, and CO1 after it. -/
theorem test_wrAcr : seen (.wrAcr .via0 0xFF#8) State.reset (·.via0.acr) = some 0xFF#8 := by decide
theorem test_wrPcr : seen (.wrPcr .via0 0x0C#8) State.reset (fun s => (s.via0.pcr, s.via0.ca2, s.via0.ctrlOut .ca2)) =
    some (0x0C#8, false, some true) := by decide

/-- WR13, WR13b. -/
theorem test_wrIfr_all : seen (.wrIfr .via0 0xFF#8) (withVia0 { Via.reset with ifr := 0x5B#7 }) (·.via0.ifr) =
    some 0x40#7 := by decide
theorem test_wrIfr_one : seen (.wrIfr .via0 0x02#8) (withVia0 { Via.reset with ifr := 0x1B#7 }) (·.via0.ifr) =
    some 0x19#7 := by decide

/-- WR14. -/
theorem test_wrIe_set : seen (.wrIe .via0 0xC2#8) (withVia0 { Via.reset with ie := 0x02#7 }) (·.via0.ie) =
    some 0x42#7 := by decide
theorem test_wrIe_clear : seen (.wrIe .via0 0x02#8) (withVia0 { Via.reset with ie := 0x42#7 }) (·.via0.ie) =
    some 0x40#7 := by decide

/-- PK1 to PK5, and the other offsets: the byte of the read, the flags untouched. -/
theorem test_peeks :
    [Instr.peekPb .via0, .peekPa .via0, .peekDdrb .via0, .peekDdra .via0, .peekT1lo .via0, .peekT1hi .via0,
     .peekT1llo .via0, .peekT1lhi .via0, .peekU8 .via0, .peekU9 .via0, .peekUa .via0, .peekAcr .via0, .peekPcr .via0,
     .peekIfr .via0, .peekIe .via0, .peekUf .via0].map
      (fun i => seen i (withVia0 { readStart with ie := 0x40#7, pcr := 0x01#8 }) byteAndFlags) =
    [0x81#8, 0x3C#8, 0x0F#8, 0xF0#8, 0x23#8, 0x01#8, 0x10#8, 0x02#8, 0x00#8, 0x00#8, 0x00#8, 0x40#8, 0x01#8, 0xDB#8,
     0x40#8, 0x00#8].map (fun b => some (Returned.byte b, 0x5B#7)) := by decide

/-- TK2 and TK7. -/
theorem test_tick_reload : seen (.tick .via0) (withVia0 { Via.reset with t1c := 1, acr := 0x40#8, t1ll := 0x05#8 }) timer =
    some (0x05#8, 0x00#8, 0x0005#16, 0x40#7) := by decide
theorem test_tick_borrow : seen (.tick .via0) (withVia0 { Via.reset with t1c := 0x0100#16 }) timer =
    some (0x00#8, 0x00#8, 0x00FF#16, 0x00#7) := by decide

/-- The stored level of a line and the flags of `via[0]`. -/
def lineAndFlags (l : CtrlLine) (s : State) : Bool × BitVec 7 := (s.via0.level l, s.via0.ifr)

/-- CL1 and CL2. -/
theorem test_ctrlinCa1_rising : seen (.ctrlinCa1 .via0 true) State.reset (lineAndFlags .ca1) = some (true, 0x00#7) := by decide
theorem test_ctrlinCa1_falling : seen (.ctrlinCa1 .via0 false) (withVia0 { Via.reset with ca1 := true })
    (lineAndFlags .ca1) = some (false, 0x02#7) := by decide

/-- CL7 and CL8. -/
theorem test_ctrlinCa2_rising : seen (.ctrlinCa2 .via0 true) (withVia0 { Via.reset with pcr := 0x04#8 })
    (lineAndFlags .ca2) = some (true, 0x01#7) := by decide
theorem test_ctrlinCa2_output : seen (.ctrlinCa2 .via0 false) (withVia0 { Via.reset with ca2 := true, pcr := 0x08#8 })
    (lineAndFlags .ca2) = some (true, 0x00#7) := by decide

/-- CL9 and CL10. -/
theorem test_ctrlinCb1_falling : seen (.ctrlinCb1 .via0 false) (withVia0 { Via.reset with cb1 := true })
    (lineAndFlags .cb1) = some (false, 0x10#7) := by decide
theorem test_ctrlinCb1_rising : seen (.ctrlinCb1 .via0 true) (withVia0 { Via.reset with pcr := 0x10#8 })
    (lineAndFlags .cb1) = some (true, 0x10#7) := by decide

/-- CL11 and CL12. -/
theorem test_ctrlinCb2_falling : seen (.ctrlinCb2 .via0 false) (withVia0 { Via.reset with cb2 := true })
    (lineAndFlags .cb2) = some (false, 0x08#7) := by decide
theorem test_ctrlinCb2_output : seen (.ctrlinCb2 .via0 true) (withVia0 { Via.reset with pcr := 0xC0#8 })
    (lineAndFlags .cb2) = some (false, 0x00#7) := by decide

/-- CO1, CO3. -/
theorem test_ctrloutCa2 : seen (.ctrloutCa2 .via0) (withVia0 { Via.reset with pcr := 0x0C#8 }) (·.io.ret) =
    some (.level true) := by decide
theorem test_ctrloutCa2_inputMode : seen (.ctrloutCa2 .via0) State.reset (·.io.ret) = none := by decide

/-- CO5, CO6. -/
theorem test_ctrloutCb2 : seen (.ctrloutCb2 .via0) (withVia0 { Via.reset with pcr := 0x80#8 }) (·.io.ret) =
    some (.level false) := by decide
theorem test_ctrloutCb2_inputMode : seen (.ctrloutCb2 .via0) (withVia0 { Via.reset with pcr := 0x40#8 }) (·.io.ret) =
    none := by decide

/-- GP1, GP2, GP3, GP5, GP6. -/
theorem test_ginA : seen (.ginA .via0 0xA5#8) (withVia0 { Via.reset with pa := 0x3C#8, ddra := 0x0F#8 }) (·.via0.pa) =
    some 0xAC#8 := by decide
theorem test_ginB : seen (.ginB .via0 0xCE#8) State.reset (·.via0.pb) = some 0xCE#8 := by decide
theorem test_ginB_outputs : seen (.ginB .via0 0xED#8) (withVia0 { Via.reset with pb := 0x12#8, ddrb := 0xFF#8 })
    (·.via0.pb) = some 0x12#8 := by decide
theorem test_goutA : seen (.goutA .via0) (withVia0 { Via.reset with pa := 0xAC#8, ddra := 0x0F#8 }) (·.io.ret) =
    some (.byte 0x0C#8) := by decide
theorem test_goutB : seen (.goutB .via0) (withVia0 { Via.reset with pb := 0xCE#8 }) (·.io.ret) = some (.byte 0x00#8) := by
  decide

/-- IQ1, IQ2, IQ3, IQ4. -/
theorem test_chkirq : seen (.chkirq .via0) (withVia0 { Via.reset with ifr := 0x02#7, ie := 0x42#7 }) (·.io.ret) =
    some (.level true) := by decide
theorem test_chkirq_disabled : seen (.chkirq .via0) (withVia0 { Via.reset with ifr := 0x02#7, ie := 0x40#7 }) (·.io.ret) =
    some (.level false) := by decide
theorem test_irqline : seen .irqline { State.reset with via1 := { Via.reset with ifr := 0x40#7, ie := 0x40#7 } } (·.io.ret) =
    some (.level true) := by decide
theorem test_irqline_quiet : seen .irqline State.reset (·.io.ret) = some (.level false) := by decide

/-- RS1. -/
theorem test_reset : seen (.reset .via0) (withVia0
    { readStart with t1c := 0x1234#16, pcr := 0x0C#8, ie := 0x7F#7, ca1 := true, ca2 := true }) (·.via0) =
    some Via.reset := by decide

/-- A latch as spec/95 writes it: ATN, DAV, EOI, NRFD, NDAC and the natural DIO byte. -/
def latch (b : BusState) : List Signal × Byte := ([b.atn, b.dav, b.eoi, b.nrfd, b.ndac], b.dio)

/-- SY1 and SY6. -/
theorem test_sync : seen .sync { State.reset with host := { State.reset.host with
      out := { BusState.released with atn := .asserted, dio := 0x48#8 } } }
    (fun s => ([s.via0.pb, s.via0.pa, s.via0.ifrByte], latch s.host.inp)) =
    some ([0xCE#8, 0xB7#8, 0x00#8], [.asserted, .negated, .negated, .negated, .negated], 0x48#8) := by decide
theorem test_sync_gate : seen .sync (withVia0 { Via.reset with ddrb := 0x06#8, pb := 0x07#8, ca1 := true })
    (fun s => latch s.host.inp) = some ([.negated, .negated, .negated, .asserted, .asserted], 0xFF#8) := by decide

/-- The host lines of HW1 to HW3, each in its own place. -/
theorem test_hset :
    [Instr.hsetDav .asserted, .hsetEoi .asserted, .hsetNdac .asserted, .hsetNrfd .asserted, .hsetSrq .asserted,
     .hsetAtn .asserted, .hsetRen .asserted, .hsetIfc .asserted].map (fun i => seen i State.reset (fun s =>
        ([s.host.out.dav, s.host.out.eoi, s.host.out.ndac, s.host.out.nrfd, s.host.out.srq, s.host.out.atn,
          s.host.out.ren, s.host.out.ifc].map (· == .asserted), s.bm.synced))) =
    [some ([true, false, false, false, false, false, false, false], false),
     some ([false, true, false, false, false, false, false, false], false),
     some ([false, false, true, false, false, false, false, false], false),
     some ([false, false, false, true, false, false, false, false], false),
     some ([false, false, false, false, true, false, false, false], false),
     some ([false, false, false, false, false, true, false, false], false),
     some ([false, false, false, false, false, false, true, false], false),
     some ([false, false, false, false, false, false, false, true], false)] := by decide

/-- HW4 and HW5. -/
theorem test_hdio : seen (.hdio 0x48#8) State.reset (fun s => (s.host.out.dio, s.bm.synced)) = some (0x48#8, false) := by
  decide
theorem test_hreset : seen .hreset { State.reset with host := { State.reset.host with
      out := { BusState.released with atn := .asserted, dio := 0x48#8 } } } (fun s => (s.host, s.bm.synced)) =
    some (State.reset.host, false) := by decide

/-- R219, R224, R226 and BM7. -/
theorem test_cmd : seen (.cmd 0x08#8 0xFF#8) State.reset (fun s => (s.bm.seq, s.bm.prim, s.bm.sec, s.host)) =
    some (.cmd, 0x08#8, 0xFF#8, State.reset.host) := by decide
theorem test_cmd_refused : seen (.cmd 0x08#8 0xFF#8) { State.reset with bm := { BusMaster.reset with seq := .cmd, step := 1 } }
    (·.bm.seq) = none := by decide
theorem test_readbyte : seen .readbyte State.reset (fun s => (s.bm.seq, s.bm.result)) = some (.readByte, .none) := by decide
theorem test_input : seen (.input 0x08#8 0x6F#8) State.reset (fun s => (s.bm.seq, s.bm.phase, s.bm.sec, s.bm.bytes)) =
    some (.input, .talk, 0x6F#8, []) := by decide

/-! Assembly lines of R89 and R90, and the monitor's lines of R91. -/

theorem test_assemble : ["WR IE@1, #0x82 ; enable CA1", "GIN A, #165", "CTRLIN@0 CA1, 1", "LDT1@1 #0x0003", "WR PB #3"].map
    (fun l => assembleLine l.toList) =
    [some [.wrIe .via1 0x82#8], some [.ginA .via0 0xA5#8], some [.ctrlinCa1 .via0 true],
     some [.wrT1lo .via1 0x03#8, .wrT1hi .via1 0x00#8], none] := by decide

theorem test_monitor : ["open 8", "via irq", "peek C000", "poke 12 100", "reboot"].map (fun l => monitorLine l.toList) =
    [.issue (.cmd 0x08#8 0xFF#8), .issue (.chkirq .via0), .answer .ram, .answer .formatError, .answer .unknown] := by decide

/-! ## Witnesses: for each statement that has hypotheses, concrete values that meet them together, clause by clause. -/

/-- The state at process start with another bus master. -/
def withBm (b : BusMaster) : State := { State.reset with bm := b }

/-- A bus master at a step of a sequence, synced. -/
def atStep (q : Sequence) (n : Nat) : BusMaster := { BusMaster.reset with seq := q, step := n }

/-- The state at process start with lines of the incoming latch ASSERTED. -/
def hearing (b : BusMaster) (ndac nrfd dav : Signal) : State :=
  { withBm b with host := { State.reset.host with inp := { BusState.quiet with ndac := ndac, nrfd := nrfd, dav := dav } } }

/-- The state at process start with one turn queued. -/
def queued (i : Input) (s : State) : State := s.withInputs [i]

/-- The state at process start with the drive loop at a phase. -/
def atPhase (p : LoopPhase) : State := { State.reset with loop := p }

theorem witness_DecodedWordsAreTheEncoding_oneWord :
    decode .via1 [0x0D00#16, 0x3000#16] = .ok (.rdIfr .via1, [0x3000#16]) := rfl

theorem witness_DecodedWordsAreTheEncoding_twoWords :
    decode .via0 [0xC008#16, 0x00FF#16, 0x3000#16] = .ok (.cmd 0x08#8 0xFF#8, [0x3000#16]) := rfl

theorem witness_ReservedWordsAreRefused : ∀ ws ∈ [[0xF000#16], [0x0D01#16], [0xC008#16], [0xC008#16, 0x0100#16]],
    ws ≠ [] ∧ WellFormed.startsTransaction ws = false := by decide

/-- The last transaction of a list, and one with a word after it. -/
theorem witness_StepRunsTheDecodedInstruction :
    (queued (.transactions .via0 [0x9000#16]) State.reset).io.inputs = .transactions .via0 [0x9000#16] :: [] ∧
    decode .via0 [0x9000#16] = .ok (.reset .via0, []) := ⟨rfl, rfl⟩

theorem witness_StepRunsTheDecodedInstruction_more :
    (queued (.transactions .via1 [0x3000#16, 0x8100#16]) State.reset).io.inputs =
      .transactions .via1 [0x3000#16, 0x8100#16] :: [] ∧
    decode .via1 [0x3000#16, 0x8100#16] = .ok (.tick .via1, [0x8100#16]) := ⟨rfl, rfl⟩

/-- The smallest load, in continuous mode and in one-shot mode, and the largest. -/
theorem witness_TimerLaw : ∀ acr ∈ [0x40#8, 0x00#8],
    bit ((withVia0 { Via.reset with acr := acr, t1ll := 0x01#8 }).via .via0).acr 6 = (acr == 0x40#8) ∧
    0 < (0x00#8).toNat * 256 + ((withVia0 { Via.reset with acr := acr, t1ll := 0x01#8 }).via .via0).t1ll.toNat ∧
    0 < (0xFF#8).toNat * 256 + ((withVia0 { Via.reset with acr := acr, t1ll := 0xFF#8 }).via .via0).t1ll.toNat := by decide

theorem witness_ZeroLoadNeverFires :
    ((withVia0 { Via.reset with t1c := 0xFFFF#16, acr := 0x40#8, ifr := 0x40#7 }).via .via0).t1ll = 0x00#8 ∧
    ((withVia0 { Via.reset with t1c := 0xFFFF#16, acr := 0x40#8, ifr := 0x40#7 }).via .via0).t1lh = 0x00#8 := by decide

theorem witness_InterruptRegisterReads : (State.reset.via .via0).Legal ∧
    ((withVia0 { Via.reset with ifr := 0x5B#7 }).via .via0).Legal := ⟨⟨by decide, by decide⟩, ⟨by decide, by decide⟩⟩

theorem witness_ControlLineOutput_outputMode :
    bit ((withVia0 { Via.reset with pcr := 0x88#8 }).via .via0).pcr 3 = true ∧
    bit ((withVia0 { Via.reset with pcr := 0x88#8 }).via .via0).pcr 7 = true := by decide

theorem witness_ControlLineOutput_inputMode :
    bit (State.reset.via .via0).pcr 3 = false ∧ bit (State.reset.via .via0).pcr 7 = false := by decide

/-- A level frozen high and a return to input mode on the falling edge, and the other way round, for CA2 and for CB2. -/
theorem witness_FrozenLevelSurvivesOutputMode : ∀ level ∈ [true, false],
    let s : State := withVia0 { Via.reset with pcr := 0x88#8, ca2 := level, cb2 := level }
    let p : Byte := if level then 0x00#8 else 0x44#8
    bit (s.via .via0).pcr 3 = true ∧ bit p 3 = false ∧ bit p 2 = !(s.via .via0).ca2 ∧
      bit (s.via .via0).pcr 7 = true ∧ bit p 7 = false ∧ bit p 6 = !(s.via .via0).cb2 := by decide

/-- NRFD and NDAC outputs driven high, and the host asserting ATN. -/
theorem witness_GateAnswersOneSyncLate :
    let s : State := { withVia0 { Via.reset with ddrb := 0x07#8, pb := 0x06#8 } with
      host := { State.reset.host with out := { BusState.released with atn := .asserted } } }
    s.host.out.atn = .asserted ∧ s.host.out.nrfd ≠ .asserted ∧ s.host.out.ndac ≠ .asserted ∧ s.via0.ca1 = false ∧
      (bit s.via0.pb 0 && bit s.via0.ddrb 0) = false ∧ (bit s.via0.ddrb 1 = true → bit s.via0.pb 1 = true) ∧
      (bit s.via0.ddrb 2 = true → bit s.via0.pb 2 = true) := by decide

theorem witness_FirstSyncAfterReset :
    State.reset.host.out.nrfd ≠ .asserted ∧ State.reset.host.out.atn ≠ .asserted := by decide

theorem witness_IncomingLatchWrittenBySyncAlone :
    exec (.hdio 0x00#8) State.reset = .next (State.reset.writeOut { State.reset.host.out with dio := 0x00#8 }) ∧
    Instr.hdio 0x00#8 ≠ .sync := ⟨rfl, by decide⟩

theorem witness_SequencesStartOnlyWhenIdle :
    State.reset.bm.seq = .idle ∧ ∀ q ∈ [Sequence.cmd, .readByte, .input], (withBm (atStep q 1)).bm.seq ≠ .idle := by decide

theorem witness_NoHostStepWhileIdleOrUnsynced : State.reset.bm.seq = .idle ∧
    (withBm { atStep .cmd 3 with synced := false }).bm.pollTag ≠ none ∧
    (withBm { atStep .cmd 3 with synced := false }).bm.synced = false := by decide

/-- Every poll of a command and of a byte read, holding. -/
theorem witness_PollSample_holds :
    ∀ row ∈ [(atStep .cmd 3, PollTag.ack, Signal.asserted, Signal.negated, Signal.negated),
        (atStep .cmd 5, .ready, .asserted, .negated, .negated), (atStep .cmd 7, .busy, .negated, .asserted, .negated),
        (atStep .cmd 8, .accepted, .negated, .negated, .negated), (atStep .cmd 10, .idle, .asserted, .negated, .negated),
        (atStep .readByte 3, .dav, .negated, .negated, .asserted),
        (atStep .readByte 8, .davRelease, .negated, .negated, .negated)],
      (hearing row.1 row.2.2.1 row.2.2.2.1 row.2.2.2.2).bm.pollTag = some row.2.1 ∧
      (hearing row.1 row.2.2.1 row.2.2.2.1 row.2.2.2.2).bm.synced = true ∧
      row.2.1.Holds (hearing row.1 row.2.2.1 row.2.2.2.1 row.2.2.2.2).host.inp := by
  simp [hearing, withBm, atStep, BusMaster.pollTag, BusMaster.inCommand, BusMaster.inRead, PollTag.Holds, BusMaster.reset,
    State.reset, BusState.quiet]

/-- A failing sample: the first, the 499th, the 500th of a command, and the 500th of a byte read. -/
theorem witness_PollSample_fails :
    (∀ r ∈ [0, 498], (withBm { atStep .cmd 3 with retries := r }).bm.pollTag = some .ack ∧
      (withBm { atStep .cmd 3 with retries := r }).bm.synced = true ∧
      ¬PollTag.ack.Holds (withBm { atStep .cmd 3 with retries := r }).host.inp ∧
      (withBm { atStep .cmd 3 with retries := r }).bm.retries + 1 ≠ 500) := by
  simp [withBm, atStep, BusMaster.pollTag, BusMaster.inCommand, PollTag.Holds, BusMaster.reset, State.reset,
    HostConnector.reset, BusState.quiet]

theorem witness_PollSample_timeout :
    ∀ q ∈ [(Sequence.cmd, PollTag.ack, true), (.readByte, .dav, false)],
      (withBm { atStep q.1 3 with retries := 499 }).bm.pollTag = some q.2.1 ∧
      (withBm { atStep q.1 3 with retries := 499 }).bm.synced = true ∧
      ¬q.2.1.Holds (withBm { atStep q.1 3 with retries := 499 }).host.inp ∧
      (withBm { atStep q.1 3 with retries := 499 }).bm.retries + 1 = 500 ∧
      (withBm { atStep q.1 3 with retries := 499 }).bm.inCommand = q.2.2 := by
  simp [withBm, atStep, BusMaster.pollTag, BusMaster.inCommand, BusMaster.inRead, PollTag.Holds, BusMaster.reset,
    State.reset, HostConnector.reset, BusState.quiet]

/-- A command's first poll, an input sequence's Untalk poll with a byte read before it, and a byte read's poll. -/
theorem witness_PollTimesOutAfterItsRetries :
    ∀ row ∈ [(atStep .cmd 3, PollTag.ack, true),
        ({ atStep .input 3 with phase := .untalk, bytes := [0x41#8] }, .ack, true), (atStep .readByte 3, .dav, false)],
      (withBm row.1).bm.pollTag = some row.2.1 ∧ (withBm row.1).bm.synced = true ∧ (withBm row.1).bm.retries = 0 ∧
      ¬row.2.1.Holds (withBm row.1).host.inp ∧ (withBm row.1).bm.inCommand = row.2.2 := by
  simp [withBm, atStep, BusMaster.pollTag, BusMaster.inCommand, BusMaster.inRead, PollTag.Holds, BusMaster.reset,
    State.reset, HostConnector.reset, BusState.quiet]

/-- The steps of a command with no condition of their own. -/
theorem witness_CommandSteps_writes : ∀ n ∈ [1, 2, 4, 6, 9, 12],
    (withBm (atStep .cmd n)).bm.seq = .cmd ∧ (withBm (atStep .cmd n)).bm.step = n := by decide

/-- Steps 3, 8 and 10; steps 5 and 7. -/
theorem witness_CommandSteps_polls :
    (∀ n ∈ [3, 5, 10], (hearing (atStep .cmd n) .asserted .negated .negated).bm.seq = .cmd ∧
      (hearing (atStep .cmd n) .asserted .negated .negated).bm.step = n ∧
      (hearing (atStep .cmd n) .asserted .negated .negated).bm.synced = true ∧
      (hearing (atStep .cmd n) .asserted .negated .negated).host.inp.ndac = .asserted ∧
      (hearing (atStep .cmd n) .asserted .negated .negated).host.inp.nrfd = .negated) ∧
    (∀ n ∈ [7, 8], (hearing (atStep .cmd n) .negated .asserted .negated).bm.seq = .cmd ∧
      (hearing (atStep .cmd n) .negated .asserted .negated).bm.step = n ∧
      (hearing (atStep .cmd n) .negated .asserted .negated).bm.synced = true ∧
      (hearing (atStep .cmd n) .negated .asserted .negated).host.inp.nrfd = .asserted ∧
      (hearing (atStep .cmd n) .negated .asserted .negated).host.inp.ndac = .negated) := by decide

/-- Step 11: with a secondary in the primary round; in the secondary round; and with none. -/
theorem witness_CommandSteps_secondary :
    (∀ sec ∈ [0x00#8, 0xFE#8], (withBm { atStep .cmd 11 with sec := sec }).bm.step = 11 ∧
      (withBm { atStep .cmd 11 with sec := sec }).bm.round = .primary ∧
      (withBm { atStep .cmd 11 with sec := sec }).bm.sec ≠ 0xFF#8) ∧
    (withBm { atStep .cmd 11 with sec := 0x02#8, round := .secondary }).bm.round = .secondary ∧
    (withBm (atStep .cmd 11)).bm.sec = 0xFF#8 := by decide

/-- The byte read's steps with no condition of their own, EOI asserted and negated, and its two polls. -/
theorem witness_ByteReadSteps :
    (∀ n ∈ [1, 2, 4, 5, 6, 7, 9], (withBm (atStep .readByte n)).bm.seq = .readByte ∧
      (withBm (atStep .readByte n)).bm.step = n) ∧
    (hearing (atStep .readByte 3) .negated .negated .asserted).bm.step = 3 ∧
    (hearing (atStep .readByte 3) .negated .negated .asserted).bm.synced = true ∧
    (hearing (atStep .readByte 3) .negated .negated .asserted).host.inp.dav = .asserted ∧
    (hearing (atStep .readByte 8) .negated .negated .negated).bm.step = 8 ∧
    (hearing (atStep .readByte 8) .negated .negated .negated).bm.synced = true ∧
    (hearing (atStep .readByte 8) .negated .negated .negated).host.inp.dav = .negated := by decide

/-- An input sequence whose inner command, and whose inner byte read, takes its first step. -/
theorem witness_InputSequenceSteps_inner :
    (∃ t, (withBm { atStep .input 1 with phase := .talk }).bm.phase ≠ .read ∧
      turn .host { withBm { atStep .input 1 with phase := .talk } with
        bm := { (withBm { atStep .input 1 with phase := .talk }).bm with seq := .cmd } } = .next t ∧ t.bm.seq = .cmd) ∧
    (∃ t, (withBm { atStep .input 1 with phase := .read }).bm.phase = .read ∧
      turn .host { withBm { atStep .input 1 with phase := .read } with
        bm := { (withBm { atStep .input 1 with phase := .read }).bm with seq := .readByte } } = .next t ∧
      t.bm.seq = .readByte) :=
  ⟨⟨_, by decide, rfl, rfl⟩, ⟨_, by decide, rfl, rfl⟩⟩

/-- The ends of its phases: the Talk command's, a byte's, the terminator's, the 80th byte's, and the UNTALK's. -/
theorem witness_InputSequenceSteps_ends :
    (∀ p ∈ [InputPhase.talk, .untalk], (withBm { atStep .input 12 with phase := p }).bm.seq = .input ∧
      (withBm { atStep .input 12 with phase := p }).bm.phase = p ∧
      (withBm { atStep .input 12 with phase := p }).bm.step = 12) ∧
    (let b : BusMaster := { atStep .input 9 with phase := .read, byte := 0x41#8, bytes := List.replicate 78 0x42#8 }
     (withBm b).bm.phase = .read ∧ (withBm b).bm.step = 9 ∧ (withBm b).bm.byte ≠ 0x13#8 ∧ (withBm b).bm.bytes.length ≠ 79) ∧
    (withBm { atStep .input 9 with phase := .read, byte := 0x13#8 }).bm.byte = 0x13#8 ∧
    (withBm { atStep .input 9 with phase := .read, byte := 0x41#8, bytes := List.replicate 79 0x42#8 }).bm.bytes.length = 79 := by
  decide

theorem witness_HostTurnSeesOnlyItsOwnState :
    (withVia0 readStart).bm = State.reset.bm ∧ (withVia0 readStart).host = State.reset.host ∧
    (withVia0 readStart).via0 ≠ State.reset.via0 := by decide

/-- Steps 2 and 12 of a command, alone and inside an input sequence. -/
theorem witness_CommandLeavesHandshakeToTheDrive_turn : ∀ q ∈ [Sequence.cmd, .input], ∀ n ∈ [2, 12],
    (withBm (atStep q n)).bm.inCommand = true ∧ (withBm (atStep q n)).host.out.nrfd = .floating ∧
    (withBm (atStep q n)).host.out.ndac = .floating ∧ 2 ≤ (withBm (atStep q n)).bm.step ∧
    (withBm (atStep q n)).bm.step ≤ 12 := by decide

/-- From step 1: two host steps, and a drive-loop iteration up to its Sync; the first poll may then sample. -/
theorem witness_CommandLeavesHandshakeToTheDrive_run : ∀ q ∈ [Sequence.cmd, .input],
    (withBm (atStep q 1)).bm.inCommand = true ∧ (withBm (atStep q 1)).bm.step = 1 ∧
    ∃ t, runTurns [.host, .host, .drive .done, .drive .done, .drive .done] (withBm (atStep q 1)) = .next t ∧
      t.bm.inCommand = true ∧ t.bm.pollTag ≠ none ∧ t.bm.synced = true := by
  intro q hq
  simp only [List.mem_cons, List.not_mem_nil, or_false] at hq
  rcases hq with rfl | rfl <;> exact ⟨rfl, rfl, _, rfl, rfl, by decide, rfl⟩

theorem witness_CommandLeavesHandshakeToTheDrive_agents :
    ∀ i ∈ [Input.host, .host, .drive .done, .drive .done, .drive .done], i.IsAgentTurn := by
  simp [Input.IsAgentTurn]

/-- R90, R160: `TICKS 17` on a continuous timer loaded with 16 underflows once and leaves 15 (R160's example). -/
theorem test_ticks_reload :
    let s : State := withVia0 { Via.reset with t1c := 16, t1ll := 0x10#8, acr := 0x40#8 }
    ∃ t, runInstrs (Pseudo.ticks .via0 17).expand s = .next t ∧ t.via0.t1c = 15 ∧ bit t.via0.ifr 6 = true :=
  ⟨_, rfl, by decide, by decide⟩

theorem witness_DriveLoopCycle : ∀ p ∈ [LoopPhase.cpuStep, .tick, .sync, .irqCheck, .halted], (atPhase p).loop = p := by
  decide

/-- The first and the last offset of a window, and an address in neither window, whatever the configured bases are. -/
theorem witness_CpuAccessesReachTheirRegister : State.reset.loop = .cpuStep ∧ 0 < 16 ∧ 15 < 16 ∧
    ∃ a, ∀ m, m < 16 → a ≠ Config.viaBase0 + m ∧ a ≠ Config.viaBase1 + m :=
  ⟨rfl, by decide, by decide, Config.viaBase0 + Config.viaBase1 + 16, fun m hm => by constructor <;> omega⟩

theorem witness_HaltedIsFinal_stays : ∃ t, step (queued (.drive .done) (atPhase .halted)) = .next t ∧
    (queued (.drive .done) (atPhase .halted)).loop = .halted := ⟨_, rfl, rfl⟩

theorem witness_HaltedIsFinal_enters : ∃ t, step (queued (.drive .fatal) State.reset) = .next t ∧
    (queued (.drive .fatal) State.reset).loop ≠ .halted ∧ t.loop = .halted := ⟨_, rfl, by decide, rfl⟩

theorem witness_AgentTurnsNeverStop : State.reset.io.inputs = [] ∧
    (∃ e q, (queued (.drive (.read 0)) State.reset).io.inputs = .drive e :: q) ∧
    ∃ q, (queued .host State.reset).io.inputs = .host :: q := ⟨rfl, ⟨_, _, rfl⟩, ⟨_, rfl⟩⟩

theorem witness_UnconnectedLinesNeverFire :
    (∃ t, ((∃ e, Input.drive .done = .drive e) ∨ Input.drive .done = .host) ∧ turn (.drive .done) (atPhase .sync) = .next t) ∧
    ∃ t, ((∃ e, Input.host = .drive e) ∨ Input.host = .host) ∧ turn .host (withBm (atStep .cmd 1)) = .next t :=
  ⟨⟨_, .inl ⟨_, rfl⟩, rfl⟩, ⟨_, .inr rfl, rfl⟩⟩

/-- A falling CA1 edge, and the tick that reaches zero. -/
theorem witness_FlagsRaisedOnlyByTheirSource :
    (∃ t, exec (.ctrlinCa1 .via0 false) (withVia0 { Via.reset with ca1 := true }) = .next t ∧
      bit ((withVia0 { Via.reset with ca1 := true }).via .via0).ifr 1 = false ∧ bit (t.via .via0).ifr 1 = true) ∧
    ∃ t, exec (.tick .via0) (withVia0 { Via.reset with t1c := 1 }) = .next t ∧
      bit ((withVia0 { Via.reset with t1c := 1 }).via .via0).ifr 6 = false ∧ bit (t.via .via0).ifr 6 = true :=
  ⟨⟨_, rfl, by decide, by decide⟩, ⟨_, rfl, by decide, by decide⟩⟩

/-- A read of Port A, and a read of the counter's low byte. -/
theorem witness_FlagsLoweredOnlyByTheirClears :
    (∃ t, exec (.rdPa .via0) (withVia0 readStart) = .next t ∧
      bit ((withVia0 readStart).via .via0).ifr 0 = true ∧ bit (t.via .via0).ifr 0 = false) ∧
    ∃ t, exec (.rdT1lo .via0) (withVia0 readStart) = .next t ∧
      bit ((withVia0 readStart).via .via0).ifr 6 = true ∧ bit (t.via .via0).ifr 6 = false :=
  ⟨⟨_, rfl, by decide, by decide⟩, ⟨_, rfl, by decide, by decide⟩⟩

theorem witness_LevelsMoveOnlyByDelivery : ∃ t, exec .sync State.reset = .next t ∧
    (t.via .via0).level .ca2 ≠ (State.reset.via .via0).level .ca2 := ⟨_, rfl, by decide⟩

/-- A command at its first poll, one failed sample behind it, with a set T1 flag; its next turn is a cable propagation. -/
def legalState : State :=
  queued (.drive .done) { withBm { atStep .cmd 3 with retries := 1, prim := 0x08#8 } with
    via0 := { Via.reset with ifr := 0x40#7 }, loop := .sync }

theorem witness_StepKeepsLegalStates : legalState.Legal ∧ ∃ t, step legalState = .next t :=
  ⟨{ via0 := ⟨by decide, by decide⟩, via1 := ⟨by decide, by decide⟩
     incoming := by intro l; cases l <;> decide
     bm := { idleStep := by decide, commandStep := by decide, readStep := by decide, retriesBelow := by decide
             retriesAtPoll := by decide, noResultYet := by decide, bytesBound := by decide, talking := by decide
             reading := by decide, secondRound := by decide } }, ⟨_, rfl⟩⟩

end Sys2Proof.Tests
end

section
/-! What a transaction, and a turn of the bus master, can do: one inversion each. -/

namespace Sys2Proof.Machine

/-- The delivery of level `t` on a control line (R84). -/
def deliverInstr (k : ViaId) (t : Bool) : CtrlLine → Instr
  | .ca1 => .ctrlinCa1 k t
  | .ca2 => .ctrlinCa2 k t
  | .cb1 => .ctrlinCb1 k t
  | .cb2 => .ctrlinCb2 k t

/-- `ExecEffect s t i`: transaction `i` takes `s` to `t` by one of the shared operations. Where the operation moves no flag and
no level and writes no incoming latch, it does not say which transaction `i` is. -/
inductive ExecEffect (s : State) : State → Instr → Prop
  | read (k : ViaId) (r : Reg) : ExecEffect s (s.cpuRead k r) (rdInstr k r)
  | write (k : ViaId) (d : Byte) (r : Reg) : ExecEffect s (s.cpuWrite k d r) (wrInstr k d r)
  | tick (k : ViaId) : ExecEffect s (s.setVia (s.via k).tick k) (.tick k)
  | deliver (k : ViaId) (l : CtrlLine) (b : Bool) :
      ExecEffect s (s.setVia ((s.via k).ctrlIn l b) k) (deliverInstr k b l)
  | portIn (i : Instr) (k : ViaId) (p : Port) (e : Byte) : ExecEffect s (s.setVia ((s.via k).portIn p e) k) i
  | reset (k : ViaId) : ExecEffect s (s.setVia .reset k) (.reset k)
  | answer (i : Instr) (r : Returned) : ExecEffect s (s.returning r) i
  | sync : ExecEffect s s.syncCable .sync
  | hostWrite (i : Instr) (b : BusState) : ExecEffect s (s.writeOut b) i
  | cmd (p sec : Byte) (h : s.bm.seq = .idle) :
      ExecEffect s (s.setBm (({ s.bm with seq := .cmd }).startCommand p sec)) (.cmd p sec)
  | readbyte (h : s.bm.seq = .idle) :
      ExecEffect s (s.setBm ({ s.bm with seq := .readByte }).startRead) .readbyte
  | input (p sec : Byte) (h : s.bm.seq = .idle) :
      ExecEffect s (s.setBm (({ s.bm with seq := .input, phase := .talk, bytes := [] }).startCommand p sec)) (.input p sec)

/-- A `CTRLOUT` that answers hands a level back and changes nothing else. -/
theorem State.controlOutput_next {s t : State} {k : ViaId} {l : OutLine} (h : s.controlOutput k l = .next t) :
    ∃ b, t = s.returning (.level b) := by
  unfold State.controlOutput at h
  split at h
  case h_1 b _ => exact ⟨b, (Host.Outcome.next.inj h).symm⟩
  case h_2 => cases h

/-- A sequence that starts finds the bus master idle, and changes its control state alone. -/
theorem State.startSequence_next {s t : State} {b : BusMaster} (h : s.startSequence b = .next t) :
    s.bm.seq = .idle ∧ t = s.setBm b := by
  unfold State.startSequence at h
  split at h
  case isTrue hi => exact ⟨hi, (Host.Outcome.next.inj h).symm⟩
  case isFalse => cases h

/-- Every transaction that has a next state is one of the shared operations. -/
theorem execEffect_of_next {i : Instr} {s t : State} (h : exec i s = .next t) : ExecEffect s t i := by
  cases i with
  | rdPb k | rdPa k | rdDdrb k | rdDdra k | rdT1lo k | rdT1hi k | rdT1llo k | rdT1lhi k | rdU8 k | rdU9 k | rdUa k
  | rdAcr k | rdPcr k | rdIfr k | rdIe k | rdUf k =>
    cases h
    exact .read k _
  | wrPb k d | wrPa k d | wrDdrb k d | wrDdra k d | wrT1lo k d | wrT1hi k d | wrT1llo k d | wrT1lhi k d | wrU8 k d
  | wrU9 k d | wrUa k d | wrAcr k d | wrPcr k d | wrIfr k d | wrIe k d | wrUf k d =>
    cases h
    exact .write k d _
  | peekPb k | peekPa k | peekDdrb k | peekDdra k | peekT1lo k | peekT1hi k | peekT1llo k | peekT1lhi k | peekU8 k
  | peekU9 k | peekUa k | peekAcr k | peekPcr k | peekIfr k | peekIe k | peekUf k | goutB k | goutA k | chkirq k
  | irqline =>
    cases h
    exact .answer _ _
  | tick k =>
    cases h
    exact .tick k
  | ctrlinCa1 k b | ctrlinCa2 k b | ctrlinCb1 k b | ctrlinCb2 k b =>
    cases h
    exact .deliver k _ b
  | ginB k e | ginA k e =>
    cases h
    exact .portIn _ k _ e
  | ctrloutCa2 k | ctrloutCb2 k =>
    obtain ⟨b, rfl⟩ := State.controlOutput_next h
    exact .answer _ _
  | reset k =>
    cases h
    exact .reset k
  | sync =>
    cases h
    exact .sync
  | hsetDav | hsetEoi | hsetNdac | hsetNrfd | hsetSrq | hsetAtn | hsetRen | hsetIfc | hdio | hreset =>
    cases h
    exact .hostWrite _ _
  | cmd p sec =>
    obtain ⟨hi, rfl⟩ := State.startSequence_next h
    exact .cmd p sec hi
  | readbyte =>
    obtain ⟨hi, rfl⟩ := State.startSequence_next h
    exact .readbyte hi
  | input p sec =>
    obtain ⟨hi, rfl⟩ := State.startSequence_next h
    exact .input p sec hi

/-- A command's step and a byte read's step are never next at once. -/
theorem BusMaster.not_inRead_of_inCommand {b : BusMaster} (h : b.inCommand = true) : b.inRead = false := by
  simp only [BusMaster.inCommand, BusMaster.inRead] at h ⊢
  cases hs : b.seq <;> simp_all

theorem BusMaster.not_inCommand_of_inRead {b : BusMaster} (h : b.inRead = true) : b.inCommand = false := by
  by_contra hc
  simp [BusMaster.not_inRead_of_inCommand (by simpa using hc)] at h

/-- Where no step is next, the bus master is idle. -/
theorem BusMaster.seq_eq_idle_iff (b : BusMaster) : b.seq = .idle ↔ b.inCommand = false ∧ b.inRead = false := by
  simp only [BusMaster.inCommand, BusMaster.inRead]
  cases b.seq <;> cases b.phase <;> decide

/-- A command's last two steps, and a byte read's last one, are no polls. -/
theorem BusMaster.pollTag_of_command_end {b : BusMaster} (hc : b.inCommand = true) (hs : b.step = 11 ∨ b.step = 12) :
    b.pollTag = none := by
  obtain hs | hs := hs <;> simp [BusMaster.pollTag, hc, hs]

theorem BusMaster.pollTag_of_read_end {b : BusMaster} (hr : b.inRead = true) (hs : b.step = 9) : b.pollTag = none := by
  simp [BusMaster.pollTag, BusMaster.not_inCommand_of_inRead hr, hr, hs]

/-- Is a numbered step before the sequence's last one next? The step numbers of R219 and R224 run to 12 and 9. -/
def BusMaster.BeforeLast (b : BusMaster) : Prop :=
  (b.inCommand = true ∧ b.step < 12) ∨ (b.inRead = true ∧ b.step < 9)

/-- What a turn of the bus master can do, by the shared operation it is. -/
inductive HostEffect (s : State) : State → Prop
  | stutter (hp : s.bm.pollTag = none) : HostEffect s s
  | poll (tag : PollTag) (c : Bool) (hp : s.bm.pollTag = some tag) (hc : c = true ↔ tag.Holds s.host.inp) :
      HostEffect s (s.poll tag c)
  | drive (b : BusState) (hp : s.bm.pollTag = none) (hn : s.bm.BeforeLast) : HostEffect s (s.driveStepOut b)
  | latch (x : Byte) (hp : s.bm.pollTag = none) (hn : s.bm.BeforeLast) :
      HostEffect s (s.setBm { s.bm with byte := x }).advance
  | commandStep11 (hc : s.bm.inCommand = true) (hs : s.bm.step = 11) : HostEffect s s.commandStep11
  | commandStep12 (hc : s.bm.inCommand = true) (hs : s.bm.step = 12) : HostEffect s s.commandStep12
  | readStep9 (hr : s.bm.inRead = true) (hs : s.bm.step = 9) : HostEffect s s.readStep9

/-- Byte-read step 6 latches the terminator, or the byte that stands. -/
theorem State.substituteEoi_eq (s : State) : s.substituteEoi =
    s.setBm { s.bm with byte := if s.host.inp.eoi = .asserted then Config.terminator else s.bm.byte } := by
  unfold State.substituteEoi
  split <;> rfl

/-- One numbered step of a command. -/
theorem hostEffect_commandStep {s : State} (hc : s.bm.inCommand = true) : HostEffect s s.commandStep := by
  unfold State.commandStep
  split
  case h_3 hs | h_5 hs | h_7 hs | h_8 hs | h_10 hs =>
    exact .poll _ _ (by simp [BusMaster.pollTag, hc, hs]) (by simp [PollTag.Holds])
  case h_1 hs | h_2 hs | h_4 hs | h_6 hs | h_9 hs =>
    exact .drive _ (by simp [BusMaster.pollTag, hc, hs]) (.inl ⟨hc, by omega⟩)
  case h_11 hs => exact .commandStep11 hc hs
  case h_12 hs => exact .commandStep12 hc hs
  case h_13 => exact .stutter (by simp_all [BusMaster.pollTag])

/-- One numbered step of a byte read. -/
theorem hostEffect_readStep {s : State} (hr : s.bm.inRead = true) : HostEffect s s.readStep := by
  have hc : s.bm.inCommand = false := BusMaster.not_inCommand_of_inRead hr
  unfold State.readStep
  split
  case h_3 hs | h_8 hs => exact .poll _ _ (by simp [BusMaster.pollTag, hc, hr, hs]) (by simp [PollTag.Holds])
  case h_1 hs | h_2 hs | h_4 hs | h_7 hs =>
    exact .drive _ (by simp [BusMaster.pollTag, hc, hr, hs]) (.inr ⟨hr, by omega⟩)
  case h_5 hs => exact .latch _ (by simp [BusMaster.pollTag, hc, hr, hs]) (.inr ⟨hr, by omega⟩)
  case h_6 hs =>
    rw [State.substituteEoi_eq]
    exact .latch _ (by simp [BusMaster.pollTag, hc, hr, hs]) (.inr ⟨hr, by omega⟩)
  case h_9 hs => exact .readStep9 hr hs
  case h_10 => exact .stutter (by simp_all [BusMaster.pollTag])

/-- Every turn of the bus master is one of the shared operations. -/
theorem hostEffect_hostStep {s t : State} (h : s.hostStep = t) : HostEffect s t := by
  subst h
  rw [State.hostStep_cases]
  split
  case isTrue hc => exact hostEffect_commandStep hc
  case isFalse hc =>
    split
    case isTrue hr => exact hostEffect_readStep hr
    case isFalse hr => exact .stutter (by simp [BusMaster.pollTag, hc, hr])

/-- An idle bus master changes nothing (R44). -/
theorem State.hostStep_of_idle {s : State} (h : s.bm.seq = .idle) : s.hostStep = s := by
  simp [State.hostStep, h]

/-- At a poll, the turn is the poll's, on the condition R219 and R224 give it. -/
theorem State.hostStep_at_poll {s : State} {tag : PollTag} (h : s.bm.pollTag = some tag) :
    ∃ c, (c = true ↔ tag.Holds s.host.inp) ∧ s.hostStep = s.poll tag c := by
  generalize ht : s.hostStep = t
  cases hostEffect_hostStep ht with
  | poll tag' c hp hc =>
    obtain rfl : tag' = tag := Option.some.inj (hp.symm.trans h)
    exact ⟨c, hc, rfl⟩
  | stutter hp | drive _ hp | latch _ hp => simp [hp] at h
  | commandStep11 hc hs => simp [BusMaster.pollTag_of_command_end hc (.inl hs)] at h
  | commandStep12 hc hs => simp [BusMaster.pollTag_of_command_end hc (.inr hs)] at h
  | readStep9 hr hs => simp [BusMaster.pollTag_of_read_end hr hs] at h

end Sys2Proof.Machine
end

section
/-! What the shared operations keep: the flags 2 and 5 of a VIA, the stored levels, the incoming latch. -/

namespace Sys2Proof.Machine

/-! ## Flags 2 and 5 (R30) -/

/-- Legality of a VIA speaks of its flags alone. -/
theorem Via.Legal.of_ifr_eq {v w : Via} (h : v.Legal) (hw : w.ifr = v.ifr) : w.Legal := by
  unfold Via.Legal
  rw [hw]
  exact h

theorem Via.Legal.reset : Via.reset.Legal := ⟨by decide, by decide⟩

theorem Via.Legal.lower {v : Via} (h : v.Legal) (n : Nat) : (v.lower n).Legal := by
  obtain ⟨h2, h5⟩ := h
  constructor
  · simp [bit_setBit, h2]
  · simp [bit_setBit, h5]

theorem Via.Legal.clearPortFlags {v : Via} (h : v.Legal) (p : Port) : (v.clearPortFlags p).Legal := by
  cases p <;> simp only [Via.clearPortFlags] <;> split
  case a.isTrue | b.isTrue => exact (h.lower _).lower _
  case a.isFalse | b.isFalse => exact h.lower _

theorem Via.Legal.tick {v : Via} (h : v.Legal) : v.tick.Legal := by
  obtain ⟨h2, h5⟩ := h
  unfold Via.Legal
  rw [Via.tick_ifr]
  split
  · simp [bit_setBit, t1Flag, h2, h5]
  · exact ⟨h2, h5⟩

/-- The flag of a control line is 0, 1, 3 or 4. -/
theorem Via.Legal.ctrlIn {v : Via} (h : v.Legal) (l : CtrlLine) (t : Bool) : (v.ctrlIn l t).Legal := by
  obtain ⟨h2, h5⟩ := h
  constructor
  · rw [Via.ctrlIn_flag_bit _ _ _ _ (by decide), h2]
    cases l <;> rfl
  · rw [Via.ctrlIn_flag_bit _ _ _ _ (by decide), h5]
    cases l <;> rfl

theorem Via.Legal.portIn {v : Via} (h : v.Legal) (p : Port) (e : Byte) : (v.portIn p e).Legal :=
  h.of_ifr_eq (Via.portIn_ifr v p e)

theorem Via.Legal.driveWrite {v : Via} (h : v.Legal) (m : BusState) : (driveWrite v m).Legal :=
  (((h.portIn _ _).ctrlIn _ _).ctrlIn _ _).portIn _ _

theorem Via.Legal.afterRead {v : Via} (h : v.Legal) (r : Reg) : (v.afterRead r).Legal := by
  cases r
  case pb | pa => exact h.clearPortFlags _
  case t1lo => exact h.lower _
  all_goals exact h

/-- No write sets a flag. -/
theorem Via.Legal.write {v : Via} (h : v.Legal) (d : Byte) (r : Reg) : (v.write d r).Legal := by
  cases r
  case pb | pa => exact (h.of_ifr_eq (Via.setPort_ifr _ _ _)).clearPortFlags _
  case t1hi | t1lhi => exact (h.of_ifr_eq rfl).lower _
  case ifr =>
    obtain ⟨h2, h5⟩ := h
    constructor
    · simp [Via.write, clearFlags, h2]
    · simp [Via.write, clearFlags, h5]
  all_goals exact h.of_ifr_eq rfl

/-! ## The stored levels (R33) -/

theorem Via.afterRead_level (v : Via) (r : Reg) (l : CtrlLine) : (v.afterRead r).level l = v.level l := by
  cases r
  case pb | pa => cases l <;> simp [Via.afterRead, Via.level]
  all_goals cases l <;> rfl

theorem Via.write_level (v : Via) (d : Byte) (r : Reg) (l : CtrlLine) : (v.write d r).level l = v.level l := by
  cases r
  case pb | pa => cases l <;> simp [Via.write, Via.level]
  all_goals cases l <;> rfl

theorem Via.tick_level (v : Via) (l : CtrlLine) : v.tick.level l = v.level l := by
  cases l <;> simp [Via.level]

theorem Via.portIn_level (v : Via) (p : Port) (e : Byte) (l : CtrlLine) : (v.portIn p e).level l = v.level l := by
  cases l <;> simp [Via.level]

/-- A Sync delivers to CA1 and CA2 alone (R194). -/
theorem driveWrite_level (v : Via) (m : BusState) (l : CtrlLine) (h1 : l ≠ .ca1) (h2 : l ≠ .ca2) :
    (driveWrite v m).level l = v.level l := by
  simp [driveWrite, Via.portIn_level, Via.ctrlIn_level, h1, h2]

/-- Where replacing `via[j]` moves a stored level of `via[k]`, `j` is `k`, and the new contents move it. -/
theorem State.level_moved_of_setVia {s : State} {v : Via} {j k : ViaId} {l : CtrlLine}
    (h : ((s.setVia v j).via k).level l ≠ (s.via k).level l) : j = k ∧ v.level l ≠ (s.via j).level l := by
  cases j <;> cases k
  case via0.via0 | via1.via1 => exact ⟨rfl, h⟩
  case via0.via1 | via1.via0 => exact absurd rfl h

/-! ## The incoming latch (R41, R212) -/

@[simp] theorem State.fail_host_inp (s : State) (tag : PollTag) : (s.fail tag).host.inp = s.host.inp := by
  cases h : s.bm.cleansUp
  · rw [State.fail_of_not_cleansUp s tag h]
  · rw [State.fail_of_cleansUp s tag h]

/-- The three outcomes of a poll's turn that keeps the sequence, and the one that ends it. -/
theorem State.poll_cases (s : State) (tag : PollTag) (c : Bool) :
    s.poll tag c = s ∨ s.poll tag c = s.setBm { s.bm with retries := 0, step := s.bm.step + 1 } ∨
    (s.bm.retries + 1 ≠ Config.pollRetries ∧ s.poll tag c = s.setBm { s.bm with retries := s.bm.retries + 1 }) ∨
    s.poll tag c = (s.setBm { s.bm with retries := s.bm.retries + 1 }).fail tag := by
  cases hs : s.bm.synced
  · exact .inl (State.poll_of_not_synced s tag c hs)
  · cases c
    · rw [State.poll_of_fails s tag hs]
      split
      case isTrue => exact .inr (.inr (.inr rfl))
      case isFalse hr => exact .inr (.inr (.inl ⟨hr, rfl⟩))
    · exact .inr (.inl (State.poll_of_holds s tag hs))

@[simp] theorem State.poll_host_inp (s : State) (tag : PollTag) (c : Bool) : (s.poll tag c).host.inp = s.host.inp := by
  obtain h | h | ⟨-, h⟩ | h := s.poll_cases tag c <;> simp [h]

@[simp] theorem State.commandStep11_host_inp (s : State) : s.commandStep11.host.inp = s.host.inp := by
  unfold State.commandStep11
  split <;> rfl

/-- No turn of the bus master writes the incoming latch. -/
@[simp] theorem State.hostStep_host_inp (s : State) : s.hostStep.host.inp = s.host.inp := by
  generalize ht : s.hostStep = t
  cases hostEffect_hostStep ht with
  | poll tag c => exact s.poll_host_inp tag c
  | commandStep11 => exact s.commandStep11_host_inp
  | stutter | drive | latch | commandStep12 | readStep9 => rfl

/-- No transaction but `SYNC` writes the incoming latch. -/
theorem ExecEffect.host_inp {s t : State} {i : Instr} (h : ExecEffect s t i) (hi : i ≠ .sync) :
    t.host.inp = s.host.inp := by
  cases h with
  | sync => exact absurd rfl hi
  | read k | write k | tick k | deliver k | portIn _ k | reset k =>
    simp [State.cpuRead, State.cpuWrite]
  | answer | hostWrite | cmd | readbyte | input => rfl

/-- Only a delivery, a Sync or a reset moves a stored level. -/
theorem ExecEffect.level {s t : State} {i : Instr} {k : ViaId} {l : CtrlLine} (h : ExecEffect s t i)
    (hl : (t.via k).level l ≠ (s.via k).level l) :
    i = .reset k ∨ (k = .via0 ∧ i = .sync ∧ (l = .ca1 ∨ l = .ca2)) ∨ ∃ b, i = deliverInstr k b l := by
  cases h with
  | read j r => exact absurd (Via.afterRead_level _ r l) (State.level_moved_of_setVia hl).2
  | write j d r => exact absurd (Via.write_level _ d r l) (State.level_moved_of_setVia hl).2
  | tick j => exact absurd (Via.tick_level _ l) (State.level_moved_of_setVia hl).2
  | portIn _ j p e => exact absurd (Via.portIn_level _ p e l) (State.level_moved_of_setVia hl).2
  | deliver j m b =>
    obtain ⟨rfl, hv⟩ := State.level_moved_of_setVia hl
    rw [Via.ctrlIn_level] at hv
    have hm : l = m := by
      by_contra hne
      simp [hne] at hv
    exact .inr (.inr ⟨b, by rw [hm]⟩)
  | reset j =>
    obtain ⟨rfl, -⟩ := State.level_moved_of_setVia hl
    exact .inl rfl
  | sync =>
    cases k
    case via0 =>
      refine .inr (.inl ⟨rfl, rfl, ?_⟩)
      by_contra hne
      rw [not_or] at hne
      exact hl (driveWrite_level _ _ l hne.1 hne.2)
    case via1 => exact absurd rfl hl
  | answer | hostWrite | cmd | readbyte | input => simp at hl

end Sys2Proof.Machine
end

section
/-! The bus master's legal control states (log entry 19), and the legal states of the block. -/

namespace Sys2Proof.Machine

/-- At a poll, a later step of the sequence follows. -/
theorem BusMaster.beforeLast_of_pollTag {b : BusMaster} {tag : PollTag} (h : b.pollTag = some tag) : b.BeforeLast := by
  unfold BusMaster.pollTag at h
  split at h
  case isTrue hc =>
    refine .inl ⟨hc, ?_⟩
    split at h
    case h_6 => cases h
    all_goals omega
  case isFalse =>
    split at h
    case isTrue hr =>
      refine .inr ⟨hr, ?_⟩
      split at h
      case h_3 => cases h
      all_goals omega
    case isFalse => cases h

theorem BusMaster.pollTag_of_idle {b : BusMaster} (h : b.seq = .idle) : b.pollTag = none := by
  obtain ⟨hc, hr⟩ := (b.seq_eq_idle_iff).1 h
  simp [BusMaster.pollTag, hc, hr]

/-- An idle bus master is legal with nothing counted and no step next. -/
theorem BusMaster.legal_of_idle {b : BusMaster} (hi : b.seq = .idle) (hs : b.step = 0) (hn : b.retries = 0)
    (hb : b.bytes.length ≤ Config.maxInput) : b.Legal := by
  obtain ⟨hc, hr⟩ := (b.seq_eq_idle_iff).1 hi
  exact
    { idleStep := fun _ => hs
      commandStep := by simp [hc]
      readStep := by simp [hr]
      retriesBelow := by simp [hn, Config.pollRetries]
      retriesAtPoll := fun _ => hn
      noResultYet := fun h => absurd hi h
      bytesBound := hb
      talking := by simp [hi]
      reading := by simp [hi]
      secondRound := by simp [hc] }

theorem BusMaster.Legal.reset : BusMaster.reset.Legal := BusMaster.legal_of_idle rfl rfl rfl (Nat.zero_le _)

theorem BusMaster.Legal.retries_of_idle {b : BusMaster} (h : b.Legal) (hi : b.seq = .idle) : b.retries = 0 :=
  h.retriesAtPoll (BusMaster.pollTag_of_idle hi)

/-- `bm.synced` and `bm.byte` play no part in legality. -/
theorem BusMaster.Legal.withSyncedByte {b : BusMaster} (h : b.Legal) (y : Bool) (x : Byte) :
    ({ b with synced := y, byte := x } : BusMaster).Legal :=
  ⟨h.idleStep, h.commandStep, h.readStep, h.retriesBelow, h.retriesAtPoll, h.noResultYet, h.bytesBound, h.talking,
    h.reading, h.secondRound⟩

/-- The end of a sequence, and a timeout. -/
theorem BusMaster.Legal.ended {b : BusMaster} (h : b.Legal) (r : SeqResult) (y : Bool) :
    ({ b with result := r, seq := .idle, step := 0, retries := 0, synced := y } : BusMaster).Legal :=
  BusMaster.legal_of_idle rfl rfl rfl h.bytesBound

/-- The head of a command (R219): step 1 of the primary round. -/
theorem BusMaster.legal_startCommand {b : BusMaster} (p sec : Byte) (hc : b.inCommand = true) (hn : b.retries = 0)
    (hb : b.bytes.length ≤ Config.maxInput) (ht : b.seq = .input → b.phase = .talk → b.bytes = []) :
    (b.startCommand p sec).Legal := by
  have hc' : (b.startCommand p sec).inCommand = true := hc
  have hr' : (b.startCommand p sec).inRead = false := BusMaster.not_inRead_of_inCommand hc'
  have hrun : (b.startCommand p sec).seq ≠ .idle := by simp [BusMaster.seq_eq_idle_iff, hc']
  exact
    { idleStep := fun h => absurd h hrun
      commandStep := fun _ => ⟨Nat.le_refl 1, by simp [BusMaster.startCommand]⟩
      readStep := by simp [hr']
      retriesBelow := by simp [BusMaster.startCommand, hn, Config.pollRetries]
      retriesAtPoll := fun _ => hn
      noResultYet := fun _ => rfl
      bytesBound := hb
      talking := ht
      reading := fun hs hp => by simp [BusMaster.inRead, hs, hp] at hr'
      secondRound := by simp [BusMaster.startCommand] }

/-- The head of a byte read (R224): step 1. -/
theorem BusMaster.legal_startRead {b : BusMaster} (hr : b.inRead = true) (hn : b.retries = 0)
    (hb : b.bytes.length ≤ Config.maxInput)
    (hread : b.seq = .input → b.phase = .read → b.bytes.length < Config.maxInput ∧ Config.terminator ∉ b.bytes) :
    b.startRead.Legal := by
  have hr' : b.startRead.inRead = true := hr
  have hc' : b.startRead.inCommand = false := BusMaster.not_inCommand_of_inRead hr'
  have hrun : b.startRead.seq ≠ .idle := by simp [BusMaster.seq_eq_idle_iff, hr']
  exact
    { idleStep := fun h => absurd h hrun
      commandStep := by simp [hc']
      readStep := fun _ => ⟨Nat.le_refl 1, by simp [BusMaster.startRead]⟩
      retriesBelow := by simp [BusMaster.startRead, hn, Config.pollRetries]
      retriesAtPoll := fun _ => hn
      noResultYet := fun _ => rfl
      bytesBound := hb
      talking := fun hs hp => by simp [BusMaster.inCommand, hs, hp] at hc'
      reading := hread
      secondRound := by simp [hc'] }

/-- The next numbered step. -/
theorem BusMaster.Legal.nextStep {b : BusMaster} (h : b.Legal) (hn : b.BeforeLast) :
    ({ b with retries := 0, step := b.step + 1 } : BusMaster).Legal := by
  have hrun : b.seq ≠ .idle := by
    obtain ⟨hc, -⟩ | ⟨hr, -⟩ := hn
    · simp [BusMaster.seq_eq_idle_iff, hc]
    · simp [BusMaster.seq_eq_idle_iff, hr]
  have hexcl := @BusMaster.not_inRead_of_inCommand b
  exact
    { idleStep := fun hi => absurd hi hrun
      commandStep := fun (hc : b.inCommand = true) => by
        obtain ⟨-, hlt⟩ | ⟨hr, -⟩ := hn
        · exact ⟨Nat.le_add_left 1 _, hlt⟩
        · simp [hexcl hc] at hr
      readStep := fun (hr : b.inRead = true) => by
        obtain ⟨hc, -⟩ | ⟨-, hlt⟩ := hn
        · simp [hexcl hc] at hr
        · exact ⟨Nat.le_add_left 1 _, hlt⟩
      retriesBelow := by simp [Config.pollRetries]
      retriesAtPoll := fun _ => rfl
      noResultYet := h.noResultYet
      bytesBound := h.bytesBound
      talking := h.talking
      reading := h.reading
      secondRound := fun hc hr => (h.secondRound hc hr).imp_right Nat.le_succ_of_le }

/-- The next numbered step after one that is no poll, where no retry was counted. -/
theorem BusMaster.Legal.nextStep_of_no_poll {b : BusMaster} (h : b.Legal) (hp : b.pollTag = none) (hn : b.BeforeLast) :
    ({ b with step := b.step + 1 } : BusMaster).Legal := by
  have hr : b.retries = 0 := h.retriesAtPoll hp
  have := h.nextStep hn
  rwa [← hr] at this

/-- A failed sample that does not end the sequence. -/
theorem BusMaster.Legal.countRetry {b : BusMaster} {tag : PollTag} (h : b.Legal) (hp : b.pollTag = some tag)
    (hn : b.retries + 1 ≠ Config.pollRetries) : ({ b with retries := b.retries + 1 } : BusMaster).Legal :=
  { h with
    retriesBelow := Nat.lt_of_le_of_ne h.retriesBelow hn
    retriesAtPoll := fun (hnone : b.pollTag = none) => by simp [hp] at hnone }

/-- The end of a sequence at a step that is no poll. -/
theorem BusMaster.Legal.finish {b : BusMaster} (h : b.Legal) (hp : b.pollTag = none) (r : SeqResult) :
    (b.finish r).Legal :=
  BusMaster.legal_of_idle rfl rfl (h.retriesAtPoll hp) h.bytesBound

/-- What follows a command's last step: the reads of an input sequence start with no byte read (R226). -/
theorem BusMaster.Legal.afterCommand {b : BusMaster} (h : b.Legal) (hp : b.pollTag = none) : b.afterCommand.Legal := by
  unfold BusMaster.afterCommand
  split
  case h_1 hs ht =>
    have hb : b.bytes = [] := h.talking hs ht
    exact BusMaster.legal_startRead (by simp [BusMaster.inRead, hs]) (h.retriesAtPoll hp) h.bytesBound
      (fun _ _ => by simp [hb, Config.maxInput])
  case h_2 | h_3 => exact h.finish hp _

/-- What follows a byte read's last step: inside an input sequence the byte joins the others, and where it is the terminator
or the last one there is room for, UNTALK follows (R226). -/
theorem BusMaster.Legal.afterRead {b : BusMaster} (h : b.Legal) (hr : b.inRead = true) (hp : b.pollTag = none) :
    b.afterRead.Legal := by
  have hn : b.retries = 0 := h.retriesAtPoll hp
  unfold BusMaster.afterRead
  split
  case h_2 => exact h.finish hp _
  case h_1 hs =>
    have hphase : b.phase = .read := by simpa [BusMaster.inRead, hs] using hr
    obtain ⟨hlen, hmem⟩ := h.reading hs hphase
    have hroom : (b.bytes ++ [b.byte]).length ≤ Config.maxInput := by
      rw [List.length_append]
      exact hlen
    dsimp only
    split
    case isTrue =>
      exact BusMaster.legal_startCommand _ _ (by simp [BusMaster.inCommand, hs]) hn hroom (fun _ hp => nomatch hp)
    case isFalse hlast =>
      obtain ⟨hterm, hfull⟩ := not_or.1 hlast
      refine BusMaster.legal_startRead hr hn hroom (fun _ _ => ⟨Nat.lt_of_le_of_ne hroom hfull, ?_⟩)
      simp [hmem, Ne.symm hterm]

/-! ## The states of the block -/

/-- Both VIAs of a legal state are legal. -/
theorem State.Legal.via {s : State} (h : s.Legal) (k : ViaId) : (s.via k).Legal := by
  cases k
  case via0 => exact h.via0
  case via1 => exact h.via1

theorem State.Legal.setVia {s : State} {v : Via} (h : s.Legal) (hv : v.Legal) (k : ViaId) : (s.setVia v k).Legal := by
  cases k
  case via0 => exact { h with via0 := hv }
  case via1 => exact { h with via1 := hv }

theorem State.Legal.setBm {s : State} {b : BusMaster} (h : s.Legal) (hb : b.Legal) : (s.setBm b).Legal :=
  { h with bm := hb }

theorem State.Legal.writeOut {s : State} (h : s.Legal) (b : BusState) : (s.writeOut b).Legal :=
  { h with bm := h.bm.withSyncedByte false s.bm.byte }

/-- The ports and the loop's phase play no part in legality. -/
theorem State.Legal.withPorts {s : State} (h : s.Legal) (p : LoopPhase) (io : Ports) :
    ({ s with loop := p, io := io } : State).Legal := { h with }

theorem mergeBus_noneFloating (a b : BusState) : (mergeBus a b).NoneFloating := by
  intro l
  cases l <;> exact mergeSignal_ne_floating _ _

/-- A Sync fills the incoming latch with merged signals, none of them FLOATING (R104). -/
theorem State.Legal.syncCable {s : State} (h : s.Legal) : s.syncCable.Legal where
  via0 := h.via0.driveWrite _
  via1 := h.via1
  incoming := fun l => by
    have hm := mergeBus_noneFloating (hostRead s.host) (driveRead s.via0) l
    cases l <;> exact hm
  bm := h.bm.withSyncedByte true s.bm.byte

theorem State.Legal.cpuRead {s : State} (h : s.Legal) (k : ViaId) (r : Reg) : (s.cpuRead k r).Legal :=
  (h.setVia ((h.via k).afterRead r) k).withPorts _ _

theorem State.Legal.cpuWrite {s : State} (h : s.Legal) (k : ViaId) (d : Byte) (r : Reg) : (s.cpuWrite k d r).Legal :=
  h.setVia ((h.via k).write d r) k

/-- Every transaction keeps a legal state legal. -/
theorem State.Legal.exec {s t : State} {i : Instr} (h : s.Legal) (he : ExecEffect s t i) : t.Legal := by
  cases he with
  | read k r => exact h.cpuRead k r
  | write k d r => exact h.cpuWrite k d r
  | tick k => exact h.setVia (h.via k).tick k
  | deliver k l b => exact h.setVia ((h.via k).ctrlIn l b) k
  | portIn _ k p e => exact h.setVia ((h.via k).portIn p e) k
  | reset k => exact h.setVia Via.Legal.reset k
  | answer => exact h.withPorts _ _
  | sync => exact h.syncCable
  | hostWrite _ b => exact h.writeOut b
  | cmd p sec hi =>
    exact h.setBm (BusMaster.legal_startCommand p sec rfl (h.bm.retries_of_idle hi) h.bm.bytesBound (fun hs => nomatch hs))
  | readbyte hi =>
    exact h.setBm (BusMaster.legal_startRead rfl (h.bm.retries_of_idle hi) h.bm.bytesBound (fun hs => nomatch hs))
  | input p sec hi =>
    exact h.setBm (BusMaster.legal_startCommand p sec rfl (h.bm.retries_of_idle hi) (Nat.zero_le _) (fun _ _ => rfl))

/-- A timeout ends the sequence, whatever the count of failed samples. -/
theorem State.Legal.fail {s : State} (h : s.Legal) (tag : PollTag) (n : Nat) :
    ((s.setBm { s.bm with retries := n }).fail tag).Legal := by
  cases hc : (s.setBm { s.bm with retries := n }).bm.cleansUp
  · rw [State.fail_of_not_cleansUp _ tag hc]
    exact { h with bm := h.bm.ended _ _ }
  · rw [State.fail_of_cleansUp _ tag hc]
    exact { h with bm := h.bm.ended _ _ }

/-- A poll's turn goes on, counts a failed sample below the limit, or ends the sequence. -/
theorem State.Legal.poll {s : State} {tag : PollTag} (h : s.Legal) (hp : s.bm.pollTag = some tag) (c : Bool) :
    (s.poll tag c).Legal := by
  obtain he | he | ⟨hn, he⟩ | he := s.poll_cases tag c <;> rw [he]
  · exact h
  · exact h.setBm (h.bm.nextStep (BusMaster.beforeLast_of_pollTag hp))
  · exact h.setBm (h.bm.countRetry hp hn)
  · exact h.fail tag _

theorem State.Legal.advance {s : State} (h : s.Legal) (hp : s.bm.pollTag = none) (hn : s.bm.BeforeLast) :
    s.advance.Legal :=
  h.setBm (h.bm.nextStep_of_no_poll hp hn)

/-- Going back to step 5 for the secondary byte: step 5 is a poll, so any count of retries below the limit is legal. -/
theorem BusMaster.Legal.secondaryRound {b : BusMaster} (h : b.Legal) (hc : b.inCommand = true)
    (hsec : b.sec ≠ Config.noSecondary) (y : Bool) :
    ({ b with synced := y, round := .secondary, step := 5 } : BusMaster).Legal := by
  have hr : b.inRead = false := BusMaster.not_inRead_of_inCommand hc
  exact
    { h with
      idleStep := fun (hi : b.seq = .idle) => by simp [((b.seq_eq_idle_iff).1 hi).1] at hc
      commandStep := fun _ => by simp
      readStep := fun (hr' : b.inRead = true) => by simp [hr] at hr'
      retriesAtPoll := fun hp => by
        have hc' : ({ b with synced := y, round := .secondary, step := 5 } : BusMaster).inCommand = true := hc
        simp [BusMaster.pollTag, hc'] at hp
      secondRound := fun _ _ => ⟨hsec, Nat.le_refl 5⟩ }

theorem State.Legal.commandStep11 {s : State} (h : s.Legal) (hc : s.bm.inCommand = true) (hs : s.bm.step = 11) :
    s.commandStep11.Legal := by
  unfold State.commandStep11
  split
  case isTrue hsec => exact (h.writeOut _).setBm (h.bm.secondaryRound hc hsec.2 false)
  case isFalse => exact h.advance (BusMaster.pollTag_of_command_end hc (.inl hs)) (.inl ⟨hc, by omega⟩)

/-- Every turn of the bus master keeps a legal state legal. -/
theorem State.Legal.hostStep {s : State} (h : s.Legal) : s.hostStep.Legal := by
  generalize ht : s.hostStep = t
  cases hostEffect_hostStep ht with
  | stutter => exact h
  | poll tag c hp => exact h.poll hp c
  | drive b hp hn => exact (h.writeOut b).advance hp hn
  | latch x hp hn => exact (h.setBm (h.bm.withSyncedByte s.bm.synced x)).advance hp hn
  | commandStep11 hc hs => exact h.commandStep11 hc hs
  | commandStep12 hc hs =>
    have hw := h.writeOut { s.host.out with atn := .negated, nrfd := .asserted, ndac := .asserted }
    exact hw.setBm (hw.bm.afterCommand (BusMaster.pollTag_of_command_end hc (.inr hs)))
  | readStep9 hr hs =>
    have hw := h.writeOut { s.host.out with ndac := .asserted, nrfd := .asserted }
    exact hw.setBm (hw.bm.afterRead hr (BusMaster.pollTag_of_read_end hr hs))

/-- Every turn of the drive loop keeps a legal state legal. -/
theorem State.Legal.driveStep {s : State} (h : s.Legal) (e : CpuEvent) : (s.driveStep e).Legal := by
  unfold State.driveStep
  split
  case h_1 =>
    cases e with
    | read addr =>
      simp only [State.cpuEvent, State.memRead]
      split
      case h_1 k r _ => exact h.cpuRead k r
      case h_2 => exact h
    | write addr d =>
      simp only [State.cpuEvent, State.memWrite]
      split
      case h_1 k r _ => exact h.cpuWrite k d r
      case h_2 => exact h
    | done | fatal => exact h.withPorts _ _
  case h_2 => exact { h with via0 := h.via0.tick, via1 := h.via1.tick }
  case h_3 => exact h.syncCable.withPorts _ _
  case h_4 => exact h.withPorts _ _
  case h_5 => exact h

/-- Every turn of the machine's own keeps a legal state legal, whichever agent takes it. -/
theorem State.Legal.ownTurn {s : State} (h : s.Legal) : s.ownTurn.Legal := by
  have hs := h.withPorts s.loop { s.io with turns := s.io.turns + 1 }
  unfold State.ownTurn
  dsimp only
  split
  case h_1 => exact hs.driveStep _
  case h_2 => exact hs.hostStep

/-- Every turn of the outside world's keeps a legal state legal. -/
theorem State.Legal.takeInput {s t : State} {i : Input} (h : s.Legal) (hi : takeInput i s = .next t) : t.Legal := by
  cases i with
  | transactions k ws =>
    simp only [Machine.takeInput, runTransactions] at hi
    split at hi
    case h_1 => exact Host.Outcome.next.inj hi ▸ h
    case h_2 =>
      split at hi
      case h_1 more _ =>
        have hq : (s.requeue k more).Legal := by
          cases more with
          | nil => exact h
          | cons => exact h.withPorts _ _
        exact hq.exec (execEffect_of_next hi)
      case h_2 => cases hi
  | drive e => exact Host.Outcome.next.inj hi ▸ h.driveStep e
  | host => exact Host.Outcome.next.inj hi ▸ h.hostStep
  | line cs =>
    simp only [Machine.takeInput, runLine] at hi
    split at hi
    case h_1 => cases hi
    case h_2 => exact (h.withPorts _ _ : (s.answering .issued).Legal).exec (execEffect_of_next hi)
    case h_3 => exact Host.Outcome.next.inj hi ▸ h.withPorts _ _

/-- Every step keeps a legal state legal. -/
theorem State.Legal.step {s t : State} (h : s.Legal) (hs : step s = .next t) : t.Legal := by
  unfold Machine.step at hs
  split at hs
  case h_1 => exact Host.Outcome.next.inj hs ▸ h.ownTurn
  case h_2 rest _ => exact (h.withPorts _ _ : (s.withInputs rest).Legal).takeInput hs

theorem State.Legal.reset : State.reset.Legal where
  via0 := Via.Legal.reset
  via1 := Via.Legal.reset
  incoming := fun l => by cases l <;> decide
  bm := BusMaster.Legal.reset

end Sys2Proof.Machine
end

section
/-! The obligations of the family on the block's state. -/

namespace Sys2Proof.Machine

/-- Settles O56: the invariant is kept by each transaction and each agent's turn, and so by every step. -/
theorem stepKeepsLegalStates : Obligations.StepKeepsLegalStates :=
  fun _ _ h hs => h.step hs

/-- Settles O38, from the two inversions: `SYNC` is the one operation that writes the latch. -/
theorem incomingLatchWrittenBySyncAlone : Obligations.IncomingLatchWrittenBySyncAlone :=
  ⟨fun _ _ _ h hi => (execEffect_of_next h).host_inp hi, fun s => ⟨_, turn_host s, s.hostStep_host_inp⟩⟩

/-- Settles O40: at a poll the turn is the poll's, which takes no sample without a Sync. -/
theorem noHostStepWhileIdleOrUnsynced : Obligations.NoHostStepWhileIdleOrUnsynced := by
  intro s
  refine ⟨fun hi => ?_, fun hp hsync => ?_⟩
  · rw [turn_host, State.hostStep_of_idle hi]
  · obtain ⟨tag, htag⟩ := Option.ne_none_iff_exists'.1 hp
    obtain ⟨c, -, hc⟩ := State.hostStep_at_poll htag
    rw [turn_host, hc, State.poll_of_not_synced s tag c hsync]

/-- Settles O55: an operation that moves a stored level is a reset, a Sync or a delivery on that line. -/
theorem levelsMoveOnlyByDelivery : Obligations.LevelsMoveOnlyByDelivery := by
  intro i s t k l h hl
  obtain hi | hi | ⟨b, hi⟩ := (execEffect_of_next h).level hl
  · exact .inl hi
  · exact .inr (.inl hi)
  · refine .inr (.inr ⟨b, ?_⟩)
    cases l <;> simp [hi, deliverInstr]

/-- Settles O31, field by field. -/
theorem stateAtProcessStart : Obligations.StateAtProcessStart := by
  refine ⟨fun k => ?_, fun l => ?_, rfl, fun l => ?_, rfl, rfl, rfl⟩
  · cases k <;> rfl
  · cases l <;> rfl
  · cases l <;> rfl

/-- Settles O57. -/
theorem processStartIsLegal : Obligations.ProcessStartIsLegal := State.Legal.reset

end Sys2Proof.Machine
end

section
/-! CPU reads a second time: lowering a flag twice is lowering it once, so a read's side effect is spent after the first (R65). -/

namespace Sys2Proof.Machine

@[simp] theorem Via.lower_lower (v : Via) (n : Nat) : (v.lower n).lower n = v.lower n := by
  simp [Via.lower, setBit, BitVec.and_assoc]

theorem Via.lower_comm (v : Via) (m n : Nat) : (v.lower m).lower n = (v.lower n).lower m := by
  simp [Via.lower, setBit, BitVec.and_assoc, BitVec.and_comm (~~~BitVec.twoPow 7 m)]

/-- The mode of a line is a matter of PCR alone. -/
@[simp] theorem Via.lower_inputMode (v : Via) (n : Nat) (l : CtrlLine) : (v.lower n).inputMode l = v.inputMode l := by
  cases l <;> rfl

/-- Lowering a pair of flags again changes nothing. -/
theorem Via.lower_pair_idem (v : Via) (m n : Nat) :
    (((v.lower m).lower n).lower m).lower n = (v.lower m).lower n := by
  rw [Via.lower_comm (v.lower m) n m, Via.lower_lower, Via.lower_lower]

@[simp] theorem Via.clearPortFlags_clearPortFlags (v : Via) (p : Port) :
    (v.clearPortFlags p).clearPortFlags p = v.clearPortFlags p := by
  cases p
  case a =>
    cases h : v.inputMode .ca2
    · simp [Via.clearPortFlags, h]
    · simp [Via.clearPortFlags, h, Via.lower_pair_idem]
  case b =>
    cases h : v.inputMode .cb2
    · simp [Via.clearPortFlags, h]
    · simp [Via.clearPortFlags, h, Via.lower_pair_idem]

/-- A read's side effect happens once. -/
theorem Via.afterRead_afterRead (v : Via) (r : Reg) : (v.afterRead r).afterRead r = v.afterRead r := by
  cases r
  case pb => exact v.clearPortFlags_clearPortFlags .b
  case pa => exact v.clearPortFlags_clearPortFlags .a
  case t1lo => exact v.lower_lower t1Flag
  all_goals rfl

/-- A read's side effect leaves the value read: where there is one, it moves flags, and the register read is not IFR. -/
theorem Via.peek_afterRead (v : Via) (r : Reg) : (v.afterRead r).peek r = v.peek r := by
  cases r
  case pb => exact v.clearPortFlags_pb .b
  case pa => exact v.clearPortFlags_pa .a
  all_goals rfl

/-- Offsets 0, 1 and 4 alone have a side effect on a read. -/
theorem Via.afterRead_eq_self (v : Via) {r : Reg} (hpb : r ≠ .pb) (hpa : r ≠ .pa) (ht : r ≠ .t1lo) : v.afterRead r = v := by
  cases r
  case pb => exact absurd rfl hpb
  case pa => exact absurd rfl hpa
  case t1lo => exact absurd rfl ht
  all_goals rfl

@[simp] theorem State.returning_returning (s : State) (a b : Returned) :
    (s.returning a).returning b = s.returning b := rfl

/-- The return port and the VIAs are written independently. -/
theorem State.setVia_returning (s : State) (a : Returned) (v : Via) (k : ViaId) :
    (s.returning a).setVia v k = (s.setVia v k).returning a := by
  cases k <;> rfl

/-- A CPU read is a fixed point of the same read. -/
theorem State.cpuRead_cpuRead (s : State) (k : ViaId) (r : Reg) : (s.cpuRead k r).cpuRead k r = s.cpuRead k r := by
  simp [State.cpuRead, State.setVia_returning, Via.afterRead_afterRead, Via.peek_afterRead]

/-- A read without a side effect hands back its value and changes nothing else. -/
theorem State.cpuRead_of_afterRead_eq {s : State} {k : ViaId} {r : Reg} (h : (s.via k).afterRead r = s.via k) :
    s.cpuRead k r = s.returning (.byte ((s.via k).peek r)) := by
  rw [State.cpuRead, h, State.setVia_self]

end Sys2Proof.Machine
end

section
/-! The address decode (R60, R68): which register an address reaches, and what an access in a CPU step then is. -/

namespace Sys2Proof

/-- Whatever pair of bases is configured, the two constants meet the constraints of R68. -/
theorem Config.basesLegal_viaBase : Config.basesLegal Config.viaBase0 Config.viaBase1 = true := by
  unfold Config.viaBase0 Config.viaBase1
  split
  case isTrue h => exact h
  case isFalse => decide

/-- Legal windows do not overlap. -/
theorem Config.disjoint_of_basesLegal {b0 b1 : Nat} (h : Config.basesLegal b0 b1 = true) :
    b0 + Config.nreg ≤ b1 ∨ b1 + Config.nreg ≤ b0 := by
  simp only [Config.basesLegal, Bool.and_eq_true, Bool.or_eq_true, decide_eq_true_eq] at h
  exact h.2

end Sys2Proof

namespace Sys2Proof.Machine

theorem decodeAddress_window0 (b0 b1 : Nat) {n : Nat} (hn : n < Config.nreg) :
    decodeAddress b0 b1 (b0 + n) = some (.via0, regOf n) := by
  simp [decodeAddress, hn]

/-- The window of `via[1]` is reached because no address of it lies in the window of `via[0]`. -/
theorem decodeAddress_window1 {b0 b1 n : Nat} (h : Config.basesLegal b0 b1 = true) (hn : n < Config.nreg) :
    decodeAddress b0 b1 (b1 + n) = some (.via1, regOf n) := by
  have hdisj := Config.disjoint_of_basesLegal h
  have hout : ¬(b0 ≤ b1 + n ∧ b1 + n < b0 + Config.nreg) := by omega
  simp [decodeAddress, hout, hn]

theorem decodeAddress_outside {b0 b1 a : Nat} (h : ∀ m, m < Config.nreg → a ≠ b0 + m ∧ a ≠ b1 + m) :
    decodeAddress b0 b1 a = none := by
  have h0 : ¬(b0 ≤ a ∧ a < b0 + Config.nreg) := fun ⟨hle, hlt⟩ => (h (a - b0) (by omega)).1 (by omega)
  have h1 : ¬(b1 ≤ a ∧ a < b1 + Config.nreg) := fun ⟨hle, hlt⟩ => (h (a - b1) (by omega)).2 (by omega)
  simp [decodeAddress, h0, h1]

/-- In a CPU step the drive loop's turn is the CPU's event (R241). -/
theorem State.driveStep_of_cpuStep {s : State} (h : s.loop = .cpuStep) (e : CpuEvent) : s.driveStep e = s.cpuEvent e := by
  simp [State.driveStep, h]

section
variable {s : State} {a : Nat} (hs : s.loop = .cpuStep)
include hs

/-- A read of an address that decodes to a register is the CPU read of that register. -/
theorem turn_read_of_decode {k : ViaId} {r : Reg}
    (ha : decodeAddress Config.viaBase0 Config.viaBase1 a = some (k, r)) :
    turn (.drive (.read a)) s = exec (rdInstr k r) s := by
  rw [turn_drive, State.driveStep_of_cpuStep hs, exec_rdInstr]
  simp [State.cpuEvent, State.memRead, ha]

/-- A write to an address that decodes to a register is the CPU write of that register. -/
theorem turn_write_of_decode {k : ViaId} {r : Reg} (d : Byte)
    (ha : decodeAddress Config.viaBase0 Config.viaBase1 a = some (k, r)) :
    turn (.drive (.write a d)) s = exec (wrInstr k d r) s := by
  rw [turn_drive, State.driveStep_of_cpuStep hs, exec_wrInstr]
  simp [State.cpuEvent, State.memWrite, ha]

/-- A read of an address that decodes to none changes nothing of the block. -/
theorem turn_read_of_decode_none (ha : decodeAddress Config.viaBase0 Config.viaBase1 a = none) :
    turn (.drive (.read a)) s = .next s := by
  rw [turn_drive, State.driveStep_of_cpuStep hs]
  simp [State.cpuEvent, State.memRead, ha]

/-- A write to an address that decodes to none changes nothing of the block. -/
theorem turn_write_of_decode_none (d : Byte) (ha : decodeAddress Config.viaBase0 Config.viaBase1 a = none) :
    turn (.drive (.write a d)) s = .next s := by
  rw [turn_drive, State.driveStep_of_cpuStep hs]
  simp [State.cpuEvent, State.memWrite, ha]

end

end Sys2Proof.Machine
end

section
/-! The queue of turns (log entries 1 and 7): what a step takes off it, and that no agent writes it. -/

namespace Sys2Proof.Machine

/-- With nothing queued the machine takes a turn of its own. -/
theorem step_of_inputs_nil {s : State} (h : s.io.inputs = []) : step s = .next s.ownTurn := by
  simp [step, h]

/-- The first queued turn is taken, with the rest left queued. -/
theorem step_of_inputs_cons {s : State} {i : Input} {q : List Input} (h : s.io.inputs = i :: q) :
    step s = takeInput i (s.withInputs q) := by
  simp [step, h]

@[simp] theorem State.fail_io (s : State) (tag : PollTag) : (s.fail tag).io = s.io := by
  cases h : s.bm.cleansUp
  · rw [State.fail_of_not_cleansUp s tag h]
  · rw [State.fail_of_cleansUp s tag h]

@[simp] theorem State.poll_io (s : State) (tag : PollTag) (c : Bool) : (s.poll tag c).io = s.io := by
  obtain h | h | ⟨-, h⟩ | h := s.poll_cases tag c <;> simp [h]

@[simp] theorem State.commandStep11_io (s : State) : s.commandStep11.io = s.io := by
  unfold State.commandStep11
  split <;> rfl

/-- No turn of the bus master touches a port of the model. -/
@[simp] theorem State.hostStep_io (s : State) : s.hostStep.io = s.io := by
  generalize ht : s.hostStep = t
  cases hostEffect_hostStep ht with
  | poll tag c => exact s.poll_io tag c
  | commandStep11 => exact s.commandStep11_io
  | stutter | drive | latch | commandStep12 | readStep9 => rfl

@[simp] theorem State.cpuRead_io (s : State) (k : ViaId) (r : Reg) :
    (s.cpuRead k r).io = { s.io with ret := .byte ((s.via k).peek r) } := by
  simp [State.cpuRead]

@[simp] theorem State.cpuWrite_io (s : State) (k : ViaId) (d : Byte) (r : Reg) : (s.cpuWrite k d r).io = s.io := by
  simp [State.cpuWrite]

/-- No event of the CPU queues a turn or takes one off the queue. -/
theorem State.cpuEvent_inputs (s : State) (e : CpuEvent) : (s.cpuEvent e).io.inputs = s.io.inputs := by
  cases e with
  | read a =>
    simp only [State.cpuEvent, State.memRead]
    split <;> simp
  | write a d =>
    simp only [State.cpuEvent, State.memWrite]
    split <;> simp
  | done | fatal => rfl

/-- No turn of the drive loop queues a turn or takes one off the queue. -/
theorem State.driveStep_inputs (s : State) (e : CpuEvent) : (s.driveStep e).io.inputs = s.io.inputs := by
  cases h : s.loop with
  | cpuStep => rw [State.driveStep_of_cpuStep h, State.cpuEvent_inputs]
  | tick | sync | irqCheck | halted => simp [State.driveStep, h]

/-- Nor does a turn of the machine's own. -/
theorem State.ownTurn_inputs (s : State) : s.ownTurn.io.inputs = s.io.inputs := by
  unfold State.ownTurn
  dsimp only
  split
  case h_1 => rw [State.driveStep_inputs]
  case h_2 => rw [State.hostStep_io]

end Sys2Proof.Machine
end

section
/-! The obligations of the family on memory accesses. -/

namespace Sys2Proof.Machine

/-- Settles O11: the state after the read is the read's own fixed point. -/
theorem secondReadIsIdempotent : Obligations.SecondReadIsIdempotent := by
  intro k r s
  refine ⟨s.cpuRead k r, exec_rdInstr k r s, ?_, fun hpb hpa ht => ?_⟩
  · rw [exec_rdInstr, State.cpuRead_cpuRead]
  · rw [State.cpuRead_of_afterRead_eq ((s.via k).afterRead_eq_self hpb hpa ht)]
    exact ⟨rfl, rfl⟩

/-- Settles O49, from the address decode in each window and outside both. -/
theorem cpuAccessesReachTheirRegister : Obligations.CpuAccessesReachTheirRegister := by
  refine ⟨Config.basesLegal_viaBase, fun s n d hs hn => ?_⟩
  have h0 := decodeAddress_window0 Config.viaBase0 Config.viaBase1 hn
  have h1 := decodeAddress_window1 Config.basesLegal_viaBase hn
  refine ⟨turn_read_of_decode hs h0, turn_read_of_decode hs h1, turn_write_of_decode hs d h0,
    turn_write_of_decode hs d h1, fun a ha => ?_⟩
  have hnone := decodeAddress_outside ha
  exact ⟨turn_read_of_decode_none hs hnone, turn_write_of_decode_none hs d hnone⟩

/-- Settles O51: an agent's turn is a total function of the state, and no agent writes the queue. -/
theorem agentTurnsNeverStop : Obligations.AgentTurnsNeverStop := by
  rintro s (h | ⟨e, q, h⟩ | ⟨q, h⟩)
  · refine ⟨s.ownTurn, step_of_inputs_nil h, ?_⟩
    rw [State.ownTurn_inputs, h, List.tail_nil]
  · refine ⟨(s.withInputs q).driveStep e, step_of_inputs_cons h, ?_⟩
    rw [State.driveStep_inputs, h, List.tail_cons, State.withInputs_io]
  · refine ⟨(s.withInputs q).hostStep, step_of_inputs_cons h, ?_⟩
    rw [State.hostStep_io, h, List.tail_cons, State.withInputs_io]

end Sys2Proof.Machine
end

section
/-! What the decoder accepts, part by part, and R87's clauses in the decoder's fields. -/

namespace Sys2Proof

/-- Acceptance as a Bool, to be computed part by part. -/
theorem isOk_iff {α : Type} {x : Except DecodeError α} : x.isOk = true ↔ ∃ a, x = .ok a := by
  cases x <;> simp [Except.isOk, Except.toBool]

@[simp] theorem isOk_ok {α : Type} (a : α) : (.ok a : Except DecodeError α).isOk = true := rfl
@[simp] theorem isOk_error {α : Type} (e : DecodeError) : (.error e : Except DecodeError α).isOk = false := rfl

/-! ## The selectors and data bytes with a meaning (R84, R85, R86) -/

theorem levelOf_isSome (d : Byte) : (levelOf d).isSome = [0, 1].contains d.toNat := by
  unfold levelOf
  split <;> simp_all

theorem signalOf_isSome (d : Byte) : (signalOf d).isSome = decide (d.toNat ≤ 2) := by
  unfold signalOf
  split
  case h_4 h0 h1 h2 =>
    rw [imp_false] at h0 h1 h2
    have : ¬d.toNat ≤ 2 := by omega
    simp [this]
  all_goals simp_all

theorem ctrlinInstr_isSome (k : ViaId) (t : Bool) (n : Nat) :
    (ctrlinInstr k t n).isSome = [0, 1, 3, 4].contains n := by
  unfold ctrlinInstr
  split <;> simp_all

theorem goutInstr_isSome (k : ViaId) (n : Nat) : (goutInstr k n).isSome = [0, 1].contains n := by
  unfold goutInstr
  split <;> simp_all

theorem ctrloutInstr_isSome (k : ViaId) (n : Nat) : (ctrloutInstr k n).isSome = [0, 3].contains n := by
  unfold ctrloutInstr
  split <;> simp_all

theorem irqInstr_isSome (k : ViaId) (n : Nat) : (irqInstr k n).isSome = [0, 1].contains n := by
  unfold irqInstr
  split <;> simp_all

theorem hsetInstr_isSome (sig : Signal) (n : Nat) : (hsetInstr sig n).isSome = decide (n ≤ 7) := by
  by_cases h : n ≤ 7
  · interval_cases n <;> rfl
  · unfold hsetInstr
    split
    case h_9 => simp [h]
    all_goals omega

/-! ## The words each part of the decoder accepts -/

theorem decodePlain_isOk (w : Word) (i : Instr) :
    (decodePlain w i).isOk = (selectorOf w == 0 && dataOf w == 0x00#8) := by
  unfold decodePlain
  by_cases hs : selectorOf w = 0 <;> by_cases hd : dataOf w = 0x00#8 <;> simp [hs, hd]

theorem decodeNoData_isOk (w : Word) (i : Option Instr) :
    (decodeNoData w i).isOk = (i.isSome && dataOf w == 0x00#8) := by
  unfold decodeNoData
  cases i with
  | none => rfl
  | some i => by_cases hd : dataOf w = 0x00#8 <;> simp [hd]

theorem decodeCtrlin_isOk (k : ViaId) (w : Word) :
    (decodeCtrlin k w).isOk = ([0, 1, 3, 4].contains (selectorOf w) && [0, 1].contains (dataOf w).toNat) := by
  rw [← levelOf_isSome]
  unfold decodeCtrlin
  cases levelOf (dataOf w) with
  | none => simp
  | some t =>
    rw [← ctrlinInstr_isSome k t]
    cases h : ctrlinInstr k t (selectorOf w) <;> simp [h]

theorem decodeGin_isOk (k : ViaId) (w : Word) : (decodeGin k w).isOk = [0, 1].contains (selectorOf w) := by
  unfold decodeGin
  split <;> simp_all

theorem decodeHost_isOk (w : Word) :
    (decodeHost w).isOk = (selectorOf w == 8 || (selectorOf w == 9 && dataOf w == 0x00#8) ||
      (decide (selectorOf w ≤ 7) && decide ((dataOf w).toNat ≤ 2))) := by
  unfold decodeHost
  split
  case h_1 h => simp [h]
  case h_2 h => by_cases hd : dataOf w = 0x00#8 <;> simp [h, hd]
  case h_3 h8 h9 =>
    rw [imp_false] at h8 h9
    split
    case isTrue h =>
      have h7 : ¬selectorOf w ≤ 7 := by omega
      simp [h8, h9, h7]
    case isFalse h =>
      have h7 : selectorOf w ≤ 7 := by omega
      rw [← signalOf_isSome]
      cases signalOf (dataOf w) with
      | none => simp [h8, h9]
      | some sig =>
        rw [← hsetInstr_isSome sig]
        cases h : hsetInstr sig (selectorOf w) <;> simp [h8, h9, h]

theorem decodeTwo_nil_isOk (make : Byte → Byte → Instr) (w : Word) : (decodeTwo make w []).isOk = false := by
  by_cases hs : selectorOf w = 0 <;> simp [decodeTwo, hs]

theorem decodeTwo_cons_isOk (make : Byte → Byte → Instr) (w w2 : Word) (rest : List Word) :
    (decodeTwo make w (w2 :: rest)).isOk = (selectorOf w == 0 && !WellFormed.reservedSecondWord w2) := by
  have h2 : w2.extractLsb' 8 8 = 0x00#8 ↔ w2.toNat / 256 = 0 := by
    rw [BitVec.toNat_eq, highHalf_toNat, BitVec.toNat_ofNat]
  by_cases hs : selectorOf w = 0 <;> by_cases hd : w2.toNat / 256 = 0 <;>
    simp [decodeTwo, WellFormed.reservedSecondWord, h2, hs, hd]

/-! ## R87 in the decoder's fields -/

theorem WellFormed.kind_eq_kindOf (w : Word) : WellFormed.kind w = kindOf w := (kindOf_eq w).symm
theorem WellFormed.selector_eq_selectorOf (w : Word) : WellFormed.selector w = selectorOf w := (selectorOf_eq w).symm
theorem WellFormed.data_eq_dataOf (w : Word) : WellFormed.data w = (dataOf w).toNat := (dataOf_toNat w).symm

theorem dataOf_bne_zero (w : Word) : ((dataOf w).toNat != 0) = (dataOf w != 0x00#8) := by
  rw [Bool.eq_iff_iff, bne_iff_ne, bne_iff_ne, ne_eq, ne_eq, BitVec.toNat_eq, BitVec.toNat_ofNat]

/-- R87's clauses on the first word, in its order. -/
theorem WellFormed.reservedFirstWord_eq (w : Word) : WellFormed.reservedFirstWord w =
    (kindOf w == 0xF || (kindOf w == 0x0 || kindOf w == 0x2) && dataOf w != 0x00#8 ||
    [0x3, 0x9, 0xA, 0xD].contains (kindOf w) && (selectorOf w != 0 || dataOf w != 0x00#8) ||
    kindOf w == 0x4 && (!([0, 1, 3, 4].contains (selectorOf w)) || !([0, 1].contains (dataOf w).toNat)) ||
    kindOf w == 0x5 && !([0, 1].contains (selectorOf w)) ||
    kindOf w == 0x6 && (!([0, 1].contains (selectorOf w)) || dataOf w != 0x00#8) ||
    kindOf w == 0x7 && (!([0, 3].contains (selectorOf w)) || dataOf w != 0x00#8) ||
    kindOf w == 0x8 && (!([0, 1].contains (selectorOf w)) || dataOf w != 0x00#8) ||
    kindOf w == 0xB && (decide (selectorOf w ≤ 7) && decide (2 < (dataOf w).toNat) ||
      selectorOf w == 9 && dataOf w != 0x00#8 || decide (10 ≤ selectorOf w)) ||
    (kindOf w == 0xC || kindOf w == 0xE) && selectorOf w != 0) := by
  simp only [WellFormed.reservedFirstWord, WellFormed.reservedKind, WellFormed.readWithData, WellFormed.plainWithOperand,
    WellFormed.badControlInput, WellFormed.badPortInput, WellFormed.badPortOutput, WellFormed.badControlOutput,
    WellFormed.badInterruptQuery, WellFormed.badHostWrite, WellFormed.badSequenceSelector,
    WellFormed.kind_eq_kindOf, WellFormed.selector_eq_selectorOf, WellFormed.data_eq_dataOf, dataOf_bne_zero]

theorem WellFormed.reservedFirstWord_of_twoWords {w : Word} (h : kindOf w = 0xC ∨ kindOf w = 0xE) :
    WellFormed.reservedFirstWord w = (selectorOf w != 0) := by
  rw [WellFormed.reservedFirstWord_eq]
  obtain h | h := h <;> simp [h]

/-- A one-word kind is accepted exactly where no clause of R87 reserves the word: of the clauses, one speaks of its kind. -/
theorem decodeOne_isOk (k : ViaId) {w : Word} (hC : kindOf w ≠ 0xC) (hE : kindOf w ≠ 0xE) :
    (decodeOne k w).isOk = !WellFormed.reservedFirstWord w := by
  rw [WellFormed.reservedFirstWord_eq]
  unfold decodeOne
  split
  case h_1 hk | h_3 hk => simp [hk, decodeNoData_isOk, bne]
  case h_2 hk => simp [hk]
  case h_4 hk | h_10 hk | h_11 hk | h_13 hk => simp [hk, decodePlain_isOk, bne]
  case h_5 hk => simp [hk, decodeCtrlin_isOk]
  case h_6 hk => simp [hk, decodeGin_isOk]
  case h_7 hk => simp [hk, decodeNoData_isOk, goutInstr_isSome, bne]
  case h_8 hk => simp [hk, decodeNoData_isOk, ctrloutInstr_isSome, bne]
  case h_9 hk => simp [hk, decodeNoData_isOk, irqInstr_isSome, bne]
  case h_12 hk =>
    rw [Bool.eq_iff_iff]
    simp [hk, decodeHost_isOk, ← BitVec.toNat_inj]
    omega
  case h_14 =>
    have hlt := kindOf_lt w
    have hk : kindOf w = 0xF := by
      simp only [imp_false] at *
      omega
    simp [hk]

/-! ## The decoder -/

/-- A kind of one word (R83) is read by `decodeOne`, and the words after it are left. -/
theorem decode_of_oneWord (k : ViaId) {w : Word} (hC : kindOf w ≠ 0xC) (hE : kindOf w ≠ 0xE) (ws : List Word) :
    decode k (w :: ws) = (decodeOne k w).map (·, ws) := by
  simp only [decode]
  cases decodeOne k w <;> rfl

theorem decode_of_cmd (k : ViaId) {w : Word} (h : kindOf w = 0xC) (ws : List Word) :
    decode k (w :: ws) = decodeTwo .cmd w ws := by
  simp [decode, h]

theorem decode_of_input (k : ViaId) {w : Word} (h : kindOf w = 0xE) (ws : List Word) :
    decode k (w :: ws) = decodeTwo .input w ws := by
  simp [decode, h]

/-- The decoder accepts exactly the lists that begin with a legal transaction (R83, R87). -/
theorem decode_isOk (k : ViaId) (ws : List Word) : (decode k ws).isOk = WellFormed.startsTransaction ws := by
  cases ws with
  | nil => rfl
  | cons w rest =>
    simp only [WellFormed.startsTransaction, WellFormed.twoWords, WellFormed.kind_eq_kindOf]
    by_cases hC : kindOf w = 0xC
    · rw [decode_of_cmd k hC, WellFormed.reservedFirstWord_of_twoWords (.inl hC)]
      cases rest <;> simp [hC, bne, decodeTwo_nil_isOk, decodeTwo_cons_isOk]
    by_cases hE : kindOf w = 0xE
    · rw [decode_of_input k hE, WellFormed.reservedFirstWord_of_twoWords (.inr hE)]
      cases rest <;> simp [hE, bne, decodeTwo_nil_isOk, decodeTwo_cons_isOk]
    · have hmap : (decode k (w :: rest)).isOk = (decodeOne k w).isOk := by
        rw [decode_of_oneWord k hC hE]
        cases decodeOne k w <;> rfl
      rw [hmap, decodeOne_isOk k hC hE]
      simp [hC, hE]

end Sys2Proof
end

section
/-! The encoder and the decoder against each other: what the decoder reads from an encoding, and whose encoding the words are
that it accepts (R80 to R88). -/

namespace Sys2Proof

/-- Every word is put together from its three fields (R80). -/
theorem exists_transactionWord (w : Word) : ∃ K S D, w = transactionWord K S D :=
  ⟨w.extractLsb' 12 4, w.extractLsb' 8 4, dataOf w, word_eq_of_fields w _ _ _ rfl rfl rfl⟩

theorem kindOf_transactionWord_ne {K L S : BitVec 4} {D : Byte} (h : K ≠ L) :
    kindOf (transactionWord K S D) ≠ L.toNat := by
  rwa [kindOf_transactionWord, ne_eq, BitVec.toNat_inj]

/-- `decode_of_oneWord`, on a word given by its fields. -/
theorem decode_transactionWord (k : ViaId) {K S : BitVec 4} {D : Byte} (hC : K ≠ 0xC#4) (hE : K ≠ 0xE#4)
    (ws : List Word) : decode k (transactionWord K S D :: ws) = (decodeOne k (transactionWord K S D)).map (·, ws) :=
  decode_of_oneWord k (kindOf_transactionWord_ne hC) (kindOf_transactionWord_ne hE) ws

/-! ## The encodings of what the tables of selectors and data bytes give -/

theorem encode_rdInstr (k : ViaId) (S : BitVec 4) :
    encode (rdInstr k (regOf S.toNat)) = [transactionWord 0x0#4 S 0x00#8] := by
  obtain ⟨n, hn⟩ := S
  interval_cases n <;> rfl

theorem encode_wrInstr (k : ViaId) (S : BitVec 4) (d : Byte) :
    encode (wrInstr k d (regOf S.toNat)) = [transactionWord 0x1#4 S d] := by
  obtain ⟨n, hn⟩ := S
  interval_cases n <;> rfl

theorem encode_peekInstr (k : ViaId) (S : BitVec 4) :
    encode (peekInstr k (regOf S.toNat)) = [transactionWord 0x2#4 S 0x00#8] := by
  obtain ⟨n, hn⟩ := S
  interval_cases n <;> rfl

section
variable {k : ViaId} {S : BitVec 4} {i : Instr}

theorem encode_of_ctrlinInstr {t : Bool} (h : ctrlinInstr k t S.toNat = some i) :
    encode i = [transactionWord 0x4#4 S (levelCode t)] := by
  obtain ⟨n, hn⟩ := S
  interval_cases n <;> cases h <;> rfl

theorem encode_of_goutInstr (h : goutInstr k S.toNat = some i) : encode i = [transactionWord 0x6#4 S 0x00#8] := by
  obtain ⟨n, hn⟩ := S
  interval_cases n <;> cases h <;> rfl

theorem encode_of_ctrloutInstr (h : ctrloutInstr k S.toNat = some i) : encode i = [transactionWord 0x7#4 S 0x00#8] := by
  obtain ⟨n, hn⟩ := S
  interval_cases n <;> cases h <;> rfl

theorem encode_of_irqInstr (h : irqInstr k S.toNat = some i) : encode i = [transactionWord 0x8#4 S 0x00#8] := by
  obtain ⟨n, hn⟩ := S
  interval_cases n <;> cases h <;> rfl

theorem encode_of_hsetInstr {sig : Signal} (h : hsetInstr sig S.toNat = some i) :
    encode i = [transactionWord 0xB#4 S (signalCode sig)] := by
  obtain ⟨n, hn⟩ := S
  interval_cases n <;> cases h <;> rfl

end

theorem eq_levelCode {d : Byte} {t : Bool} (h : levelOf d = some t) : d = levelCode t := by
  unfold levelOf at h
  split at h <;> cases h <;> exact BitVec.eq_of_toNat_eq ‹_›

theorem eq_signalCode {d : Byte} {sig : Signal} (h : signalOf d = some sig) : d = signalCode sig := by
  unfold signalOf at h
  split at h <;> cases h <;> exact BitVec.eq_of_toNat_eq ‹_›

/-! ## What each part of the decoder reads -/

section
variable {k : ViaId} {K S : BitVec 4} {D : Byte} {i : Instr}

theorem decodePlain_eq_ok {j : Instr} (h : decodePlain (transactionWord K S D) j = .ok i) :
    S = 0x0#4 ∧ D = 0x00#8 ∧ j = i := by
  unfold decodePlain at h
  split at h
  case isTrue => cases h
  case isFalse hS =>
    split at h
    case isTrue => cases h
    case isFalse hD =>
      rw [selectorOf_transactionWord, not_not] at hS
      rw [dataOf_transactionWord, not_not] at hD
      exact ⟨BitVec.eq_of_toNat_eq hS, hD, Except.ok.inj h⟩

theorem decodeNoData_eq_ok {o : Option Instr} (h : decodeNoData (transactionWord K S D) o = .ok i) :
    D = 0x00#8 ∧ o = some i := by
  unfold decodeNoData at h
  split at h
  case h_1 => cases h
  case h_2 =>
    split at h
    case isTrue => cases h
    case isFalse hD =>
      rw [dataOf_transactionWord, not_not] at hD
      exact ⟨hD, congrArg some (Except.ok.inj h)⟩

theorem encode_of_decodeCtrlin (h : decodeCtrlin k (transactionWord 0x4#4 S D) = .ok i) :
    encode i = [transactionWord 0x4#4 S D] := by
  unfold decodeCtrlin at h
  rw [dataOf_transactionWord, selectorOf_transactionWord] at h
  split at h
  case h_1 => cases h
  case h_2 t ht =>
    split at h
    case h_1 => cases h
    case h_2 hi =>
      cases h
      rw [encode_of_ctrlinInstr hi, eq_levelCode ht]

theorem encode_of_decodeGin (h : decodeGin k (transactionWord 0x5#4 S D) = .ok i) :
    encode i = [transactionWord 0x5#4 S D] := by
  unfold decodeGin at h
  rw [dataOf_transactionWord, selectorOf_transactionWord] at h
  obtain ⟨n, hn⟩ := S
  interval_cases n <;> cases h <;> rfl

theorem encode_of_decodeHost (h : decodeHost (transactionWord 0xB#4 S D) = .ok i) :
    encode i = [transactionWord 0xB#4 S D] := by
  unfold decodeHost at h
  rw [dataOf_transactionWord, selectorOf_transactionWord] at h
  split at h
  case h_1 hS =>
    obtain rfl : S = 0x8#4 := BitVec.eq_of_toNat_eq hS
    cases h
    rfl
  case h_2 hS =>
    obtain rfl : S = 0x9#4 := BitVec.eq_of_toNat_eq hS
    split at h
    case isTrue => cases h
    case isFalse hD =>
      rw [not_not.1 hD]
      cases h
      rfl
  case h_3 =>
    split at h
    case isTrue => cases h
    case isFalse =>
      split at h
      case h_1 => cases h
      case h_2 sig hsig =>
        split at h
        case h_1 => cases h
        case h_2 hi =>
          cases h
          rw [encode_of_hsetInstr hi, eq_signalCode hsig]

/-- The word read by `decodeOne` is the encoding of its answer. -/
theorem encode_of_decodeOne (h : decodeOne k (transactionWord K S D) = .ok i) : encode i = [transactionWord K S D] := by
  unfold decodeOne at h
  rw [kindOf_transactionWord, selectorOf_transactionWord] at h
  split at h
  case h_1 hK =>
    obtain rfl : K = 0x0#4 := BitVec.eq_of_toNat_eq hK
    obtain ⟨rfl, hi⟩ := decodeNoData_eq_ok h
    cases hi
    exact encode_rdInstr k S
  case h_2 hK =>
    obtain rfl : K = 0x1#4 := BitVec.eq_of_toNat_eq hK
    rw [dataOf_transactionWord] at h
    cases h
    exact encode_wrInstr k S D
  case h_3 hK =>
    obtain rfl : K = 0x2#4 := BitVec.eq_of_toNat_eq hK
    obtain ⟨rfl, hi⟩ := decodeNoData_eq_ok h
    cases hi
    exact encode_peekInstr k S
  case h_4 hK =>
    obtain rfl : K = 0x3#4 := BitVec.eq_of_toNat_eq hK
    obtain ⟨rfl, rfl, rfl⟩ := decodePlain_eq_ok h
    rfl
  case h_5 hK =>
    obtain rfl : K = 0x4#4 := BitVec.eq_of_toNat_eq hK
    exact encode_of_decodeCtrlin h
  case h_6 hK =>
    obtain rfl : K = 0x5#4 := BitVec.eq_of_toNat_eq hK
    exact encode_of_decodeGin h
  case h_7 hK =>
    obtain rfl : K = 0x6#4 := BitVec.eq_of_toNat_eq hK
    obtain ⟨rfl, hi⟩ := decodeNoData_eq_ok h
    exact encode_of_goutInstr hi
  case h_8 hK =>
    obtain rfl : K = 0x7#4 := BitVec.eq_of_toNat_eq hK
    obtain ⟨rfl, hi⟩ := decodeNoData_eq_ok h
    exact encode_of_ctrloutInstr hi
  case h_9 hK =>
    obtain rfl : K = 0x8#4 := BitVec.eq_of_toNat_eq hK
    obtain ⟨rfl, hi⟩ := decodeNoData_eq_ok h
    exact encode_of_irqInstr hi
  case h_10 hK =>
    obtain rfl : K = 0x9#4 := BitVec.eq_of_toNat_eq hK
    obtain ⟨rfl, rfl, rfl⟩ := decodePlain_eq_ok h
    rfl
  case h_11 hK =>
    obtain rfl : K = 0xA#4 := BitVec.eq_of_toNat_eq hK
    obtain ⟨rfl, rfl, rfl⟩ := decodePlain_eq_ok h
    rfl
  case h_12 hK =>
    obtain rfl : K = 0xB#4 := BitVec.eq_of_toNat_eq hK
    exact encode_of_decodeHost h
  case h_13 hK =>
    obtain rfl : K = 0xD#4 := BitVec.eq_of_toNat_eq hK
    obtain ⟨rfl, rfl, rfl⟩ := decodePlain_eq_ok h
    rfl
  case h_14 => cases h

/-- The two words read by `decodeTwo`. -/
theorem decodeTwo_eq_ok {make : Byte → Byte → Instr} {ws rest : List Word}
    (h : decodeTwo make (transactionWord K S D) ws = .ok (i, rest)) :
    S = 0x0#4 ∧ ∃ b, i = make D b ∧ ws = transactionWord 0x0#4 0x0#4 b :: rest := by
  cases ws with
  | nil =>
    simp only [decodeTwo] at h
    split at h <;> cases h
  | cons w2 ws =>
    simp only [decodeTwo] at h
    split at h
    case isTrue => cases h
    case isFalse hS =>
      split at h
      case isTrue => cases h
      case isFalse h2 =>
        rw [selectorOf_transactionWord, not_not] at hS
        rw [not_not] at h2
        cases h
        have hw := congrArg BitVec.toNat h2
        rw [highHalf_toNat, BitVec.toNat_ofNat] at hw
        refine ⟨BitVec.eq_of_toNat_eq hS, dataOf w2, by rw [dataOf_transactionWord], ?_⟩
        rw [← word_eq_of_fields w2 0x0#4 0x0#4 (dataOf w2) ?_ ?_ rfl]
        · rw [kindOf_eq, BitVec.toNat_ofNat]
          omega
        · rw [selectorOf_eq, BitVec.toNat_ofNat]
          omega

/-- Words the decoder accepts are the encoding of its answer, as many as R83 says, and the words after it. -/
theorem encode_of_decode {w : Word} {ws rest : List Word} (h : decode k (w :: ws) = .ok (i, rest)) :
    w :: ws = encode i ++ rest ∧ (encode i).length = if kindOf w = 0xC ∨ kindOf w = 0xE then 2 else 1 := by
  obtain ⟨K, S, D, rfl⟩ := exists_transactionWord w
  by_cases hC : K = 0xC#4
  · subst hC
    rw [decode_of_cmd k (kindOf_transactionWord _ S D)] at h
    obtain ⟨rfl, b, rfl, rfl⟩ := decodeTwo_eq_ok h
    exact ⟨rfl, by simp [encode]⟩
  by_cases hE : K = 0xE#4
  · subst hE
    rw [decode_of_input k (kindOf_transactionWord _ S D)] at h
    obtain ⟨rfl, b, rfl, rfl⟩ := decodeTwo_eq_ok h
    exact ⟨rfl, by simp [encode]⟩
  · rw [decode_transactionWord k hC hE] at h
    cases hi : decodeOne k (transactionWord K S D) with
    | error e =>
      rw [hi] at h
      cases h
    | ok j =>
      rw [hi] at h
      cases h
      have hone : ¬(kindOf (transactionWord K S D) = 0xC ∨ kindOf (transactionWord K S D) = 0xE) :=
        not_or.2 ⟨kindOf_transactionWord_ne hC, kindOf_transactionWord_ne hE⟩
      rw [encode_of_decodeOne hi, if_neg hone]
      exact ⟨rfl, rfl⟩

end

/-! ## What the decoder reads from an encoding -/

section
variable (k : ViaId)

theorem decode_of_decodeOne (rest : List Word) {K S : BitVec 4} {D : Byte} {i : Instr} (hC : K ≠ 0xC#4) (hE : K ≠ 0xE#4)
    (h : decodeOne k (transactionWord K S D) = .ok i) :
    decode k (transactionWord K S D :: rest) = .ok (i, rest) := by
  rw [decode_transactionWord k hC hE, h]
  rfl

/-- The words whose data byte is an operand. -/
theorem decodeOne_write (S : BitVec 4) (D : Byte) :
    decodeOne k (transactionWord 0x1#4 S D) = .ok (wrInstr k D (regOf S.toNat)) := by
  simp [decodeOne]

theorem decodeOne_ginB (D : Byte) : decodeOne k (transactionWord 0x5#4 0x0#4 D) = .ok (.ginB k D) := by
  simp [decodeOne, decodeGin]

theorem decodeOne_ginA (D : Byte) : decodeOne k (transactionWord 0x5#4 0x1#4 D) = .ok (.ginA k D) := by
  simp [decodeOne, decodeGin]

theorem decodeOne_hdio (D : Byte) : decodeOne k (transactionWord 0xB#4 0x8#4 D) = .ok (.hdio D) := by
  simp [decodeOne, decodeHost]

/-- The two words of a sequence with its two bytes (R83). -/
theorem decodeTwo_transactionWord (make : Byte → Byte → Instr) (K : BitVec 4) (D E : Byte) (rest : List Word) :
    decodeTwo make (transactionWord K 0x0#4 D) (transactionWord 0x0#4 0x0#4 E :: rest) = .ok (make D E, rest) := by
  simp [decodeTwo, highHalf_transactionWord]

end

/-- The decoder reads an instruction back from its encoding. A word without an operand is read by evaluation, and so is each
value of a level or a signal; a data byte stays a variable. -/
theorem decode_encode (i : Instr) (rest : List Word) : decode i.instanceOf (encode i ++ rest) = .ok (i, rest) := by
  cases i with
  | rdPb | rdPa | rdDdrb | rdDdra | rdT1lo | rdT1hi | rdT1llo | rdT1lhi | rdU8 | rdU9 | rdUa | rdAcr | rdPcr | rdIfr | rdIe
  | rdUf | peekPb | peekPa | peekDdrb | peekDdra | peekT1lo | peekT1hi | peekT1llo | peekT1lhi | peekU8 | peekU9 | peekUa
  | peekAcr | peekPcr | peekIfr | peekIe | peekUf | tick | goutB | goutA | ctrloutCa2 | ctrloutCb2 | chkirq | irqline | reset
  | sync | hreset | readbyte =>
    exact decode_of_decodeOne _ rest (by decide) (by decide) rfl
  | wrPb | wrPa | wrDdrb | wrDdra | wrT1lo | wrT1hi | wrT1llo | wrT1lhi | wrU8 | wrU9 | wrUa | wrAcr | wrPcr | wrIfr | wrIe
  | wrUf =>
    exact decode_of_decodeOne _ rest (by decide) (by decide) (decodeOne_write _ _ _)
  | ctrlinCa2 k t | ctrlinCa1 k t | ctrlinCb2 k t | ctrlinCb1 k t =>
    cases t <;> exact decode_of_decodeOne _ rest (by decide) (by decide) rfl
  | ginB => exact decode_of_decodeOne _ rest (by decide) (by decide) (decodeOne_ginB _ _)
  | ginA => exact decode_of_decodeOne _ rest (by decide) (by decide) (decodeOne_ginA _ _)
  | hsetDav sig | hsetEoi sig | hsetNdac sig | hsetNrfd sig | hsetSrq sig | hsetAtn sig | hsetRen sig | hsetIfc sig =>
    cases sig <;> exact decode_of_decodeOne _ rest (by decide) (by decide) rfl
  | hdio => exact decode_of_decodeOne _ rest (by decide) (by decide) (decodeOne_hdio _ _)
  | cmd p s =>
    exact (decode_of_cmd _ (kindOf_transactionWord _ _ p) _).trans (decodeTwo_transactionWord .cmd _ p s rest)
  | input p s =>
    exact (decode_of_input _ (kindOf_transactionWord _ _ p) _).trans (decodeTwo_transactionWord .input _ p s rest)

end Sys2Proof
end

section
/-! The pseudo-operations' writes bit by bit (R138, R139, R144, R145), a run of ticks (R160), and the monitor's lines (R91). -/

namespace Sys2Proof.Machine

/-- A run that replaces `via[k]`. -/
theorem runChangesVia_of_run {is : List Instr} {s : State} {k : ViaId} {v : Via} {P : Via → Prop}
    (h : runInstrs is s = .next (s.setVia v k)) (hp : P v) : RunChangesVia is s k P :=
  ⟨_, h, by simpa using hp, by simp⟩

/-- A run of one write. -/
theorem runInstrs_write (k : ViaId) (d : Byte) (r : Reg) (s : State) :
    runInstrs [wrInstr k d r] s = .next (s.setVia ((s.via k).write d r) k) :=
  runInstrs_cons_of_next [] (exec_wrInstr k d r s)

theorem bit_low7 (d : Byte) {j : Nat} (h : j < 7) : bit (d.extractLsb' 0 7) j = bit d j := by
  simp [bit, h]

theorem bit_enableBits (ie : BitVec 7) (d : Byte) {j : Nat} (h : j < 7) :
    bit (enableBits ie d) j = if bit d 7 then bit ie j || bit d j else bit ie j && !bit d j := by
  unfold enableBits
  cases bit d 7 <;> simp [bit_not, bit_low7, h]

/-- `IESET`: with bit 7 set, the selected enables are set. -/
theorem bit_enableBits_set (ie : BitVec 7) (m : Byte) {j : Nat} (h : j < 7) :
    bit (enableBits ie (0x80#8 ||| m)) j = (bit ie j || bit m j) := by
  have h7 : bit 0x80#8 7 = true := rfl
  have hj : bit 0x80#8 j = false := by
    interval_cases j <;> rfl
  simp [bit_enableBits, h, h7, hj]

/-- `IECLR`: with bit 7 clear, they are cleared. -/
theorem bit_enableBits_clear (ie : BitVec 7) (m : Byte) {j : Nat} (h : j < 7) :
    bit (enableBits ie (m &&& 0x7F#8)) j = (bit ie j && !bit m j) := by
  have h7 : bit 0x7F#8 7 = false := rfl
  have hj : bit 0x7F#8 j = true := by
    interval_cases j <;> rfl
  simp [bit_enableBits, h, h7, hj]

theorem bit_clearFlags (ifr : BitVec 7) (d : Byte) {j : Nat} (h : j < 7) :
    bit (clearFlags ifr d) j = (bit ifr j && !((j == 0 || j == 1 || j == 3 || j == 4) && bit d j)) := by
  have hmask : bit 0x1B#8 j = (j == 0 || j == 1 || j == 3 || j == 4) := by
    interval_cases j <;> rfl
  simp only [clearFlags, bit_and, bit_not _ _ h, bit_low7 _ h, hmask, Bool.and_comm (bit d j)]

/-- `LDT1` splits its operand into the two latches' bytes, and the load puts them together again. -/
theorem pair_extract (w : Word) : pair (w.extractLsb' 8 8) (w.extractLsb' 0 8) = w :=
  BitVec.eq_of_toNat_eq ((pair_toNat _ _).trans (bytes_toNat w))

theorem runInstrs_ldt1 (k : ViaId) (w : Word) (s : State) : runInstrs (Pseudo.ldt1 k w).expand s =
    .next (s.setVia (({ s.via k with t1ll := lowByte w } : Via).loadTimer (highByte w)) k) := by
  rw [Pseudo.expand, runInstrs_cons_of_next _ (exec_wrT1lo k _ s), runInstrs_cons_of_next _ (exec_wrT1hi k _ _)]
  simp [State.cpuWrite, Via.write, lowByte, highByte, runInstrs_nil]

/-! ## A run of ticks -/

/-- The counter after `n` ticks from `c`, with `l` in the latches: it counts down to 0, or, in continuous mode once it has
reached 0, down from `l` again and again. -/
def countAfter (continuous : Bool) (l c n : Nat) : Nat :=
  if continuous = true ∧ 0 < c ∧ c ≤ n then l - (n - c) % l else c - n

theorem countAfter_of_lt {c n : Nat} (continuous : Bool) (l : Nat) (h : n < c) : countAfter continuous l c n = c - n :=
  if_neg fun ⟨_, _, hle⟩ => absurd hle (Nat.not_le.2 h)

theorem countAfter_zero (continuous : Bool) (l c : Nat) : countAfter continuous l c 0 = c :=
  if_neg fun ⟨_, hpos, hle⟩ => absurd hle (Nat.not_le.2 hpos)

/-- A counter that has run out stays at 0 in one-shot mode. -/
theorem countAfter_oneShot {c n : Nat} (l : Nat) (h : c ≤ n) : countAfter false l c n = 0 := by
  simp [countAfter, h]

theorem countAfter_of_zero (continuous : Bool) (l n : Nat) : countAfter continuous l 0 n = 0 := by
  simp [countAfter]

/-- In continuous mode, `m` ticks after the counter first reached 0. -/
theorem countAfter_continuous {c : Nat} (l m : Nat) (h : 0 < c) : countAfter true l c (c + m) = l - m % l := by
  simp [countAfter, h]

/-- The tick at 1 reloads, and every other one takes one from what is left of the round. -/
theorem sub_mod_succ (l m : Nat) : l - (m + 1) % l = if l - m % l = 1 then l else l - m % l - 1 := by
  obtain rfl | hl := Nat.eq_zero_or_pos l
  · simp
  · have hm := Nat.mod_lt m hl
    rw [← Nat.mod_add_mod]
    obtain hr | hr := Nat.lt_or_ge (m % l + 1) l
    · rw [Nat.mod_eq_of_lt hr, if_neg (by omega)]
      omega
    · rw [show m % l + 1 = l by omega, Nat.mod_self, if_pos (by omega), Nat.sub_zero]

/-- One more tick. -/
theorem countAfter_succ (continuous : Bool) (l c n : Nat) :
    countAfter continuous l c (n + 1) =
      if countAfter continuous l c n = 1 ∧ continuous = true then l else countAfter continuous l c n - 1 := by
  obtain hlt | hle := Nat.lt_or_ge n c
  · rw [countAfter_of_lt continuous l hlt]
    obtain hlt' | rfl := Nat.lt_or_eq_of_le (Nat.succ_le_of_lt hlt)
    · rw [countAfter_of_lt continuous l hlt', if_neg (by omega)]
      omega
    · cases continuous
      · simp [countAfter_oneShot]
      · simpa using countAfter_continuous l 0 hlt.pos
  · obtain ⟨m, rfl⟩ := Nat.exists_eq_add_of_le hle
    obtain rfl | hpos := Nat.eq_zero_or_pos c
    · simp [countAfter_of_zero]
    · cases continuous
      · simp [countAfter_oneShot, Nat.add_assoc]
      · simp only [Nat.add_assoc, countAfter_continuous l _ hpos, sub_mod_succ, and_true]

/-- A running counter has reached 0 by the next tick exactly when it had before, or stands at 1 now. -/
theorem reached_succ (continuous : Bool) (l c n : Nat) :
    (0 < c ∧ c ≤ n + 1) ↔ (0 < c ∧ c ≤ n) ∨ countAfter continuous l c n = 1 := by
  obtain hlt | hle := Nat.lt_or_ge n c
  · rw [countAfter_of_lt continuous l hlt]
    omega
  · unfold countAfter
    split
    · omega
    · omega

theorem Via.t1c_eq_one_iff (v : Via) : v.t1c = 1#16 ↔ v.t1c.toNat = 1 := BitVec.toNat_eq

theorem Via.tick_count (v : Via) :
    v.tick.t1c.toNat = if v.t1c.toNat = 1 ∧ v.continuous = true then v.latches.toNat else v.t1c.toNat - 1 := by
  simp only [Via.tick_t1c, Via.t1c_eq_one_iff]
  split
  case isTrue => rfl
  case isFalse =>
    split
    case isTrue h0 => simp [h0]
    case isFalse h0 => bv_omega

theorem Via.bit_tick_ifr (v : Via) {j : Nat} (h : j < 7) :
    bit v.tick.ifr j = (bit v.ifr j || (j == 6 && decide (v.t1c.toNat = 1))) := by
  simp only [Via.tick_ifr, Via.t1c_eq_one_iff]
  split
  case isTrue hc =>
    rw [bit_setBit _ _ _ _ h]
    by_cases hj : j = 6 <;> simp [t1Flag, hj, hc]
  case isFalse hc => simp [hc]

/-- A tick moves the counter and the flags alone. -/
theorem Via.tick_frame (v : Via) (c : Word) (f : BitVec 7) :
    { v.tick with t1c := c, ifr := f } = { v with t1c := c, ifr := f } := by
  simp

/-- Nor does a run of ticks move anything else. -/
theorem Via.ticks_frame (v : Via) (n : Nat) (c : Word) (f : BitVec 7) :
    { Via.tick^[n] v with t1c := c, ifr := f } = { v with t1c := c, ifr := f } := by
  induction n with
  | zero => rfl
  | succ n ih => rw [Function.iterate_succ_apply', Via.tick_frame, ih]

/-- The mode and the latches are the ones a run of ticks starts with. -/
theorem Via.ticks_continuous (v : Via) (n : Nat) : (Via.tick^[n] v).continuous = v.continuous :=
  (congrArg Via.continuous (v.ticks_frame n 0 0) :)

theorem Via.ticks_latches (v : Via) (n : Nat) : (Via.tick^[n] v).latches = v.latches :=
  (congrArg Via.latches (v.ticks_frame n 0 0) :)

/-- The counter after `n` ticks. -/
theorem Via.ticks_count (v : Via) (n : Nat) :
    (Via.tick^[n] v).t1c.toNat = countAfter v.continuous v.latches.toNat v.t1c.toNat n := by
  induction n with
  | zero => rw [countAfter_zero, Function.iterate_zero_apply]
  | succ n ih =>
    rw [Function.iterate_succ_apply', Via.tick_count, ih, Via.ticks_continuous, Via.ticks_latches, countAfter_succ]

/-- The flags after `n` ticks: T1 is raised where a running counter reaches 0 on the way. -/
theorem Via.ticks_flags (v : Via) (n : Nat) {j : Nat} (h : j < 7) :
    bit (Via.tick^[n] v).ifr j =
      (bit v.ifr j || (j == 6 && decide (0 < v.t1c.toNat ∧ v.t1c.toNat ≤ n))) := by
  induction n with
  | zero =>
    have hnone : ¬(0 < v.t1c.toNat ∧ v.t1c.toNat ≤ 0) := by omega
    rw [Function.iterate_zero_apply, decide_eq_false hnone, Bool.and_false, Bool.or_false]
  | succ n ih =>
    have hreach := reached_succ v.continuous v.latches.toNat v.t1c.toNat n
    rw [Function.iterate_succ_apply', Via.bit_tick_ifr _ h, ih, Via.ticks_count, decide_eq_decide.2 hreach,
      Bool.decide_or, Bool.and_or_distrib_left, Bool.or_assoc]

/-! ## The monitor -/

/-- A line that stands for a transaction. -/
theorem turn_line_of_issue {cs : List Char} {i : Instr} (h : monitorLine cs = .issue i) (s : State) :
    turn (.line cs) s = exec i (s.answering .issued) := by
  rw [turn_line, runLine, h]

end Sys2Proof.Machine
end

section
/-! The obligations of the family on the encoding and the textual interfaces. -/

namespace Sys2Proof.Machine

/-- Settles O1, by the round trip of each instruction. -/
theorem decodeEncodeRoundTrip : Obligations.DecodeEncodeRoundTrip := decode_encode

/-- Settles O2: each part of the decoder answers an instruction with the fields it has read. -/
theorem decodedWordsAreTheEncoding : Obligations.DecodedWordsAreTheEncoding := by
  intro k w ws rest i h
  rw [← kindOf_eq]
  exact encode_of_decode h

/-- Settles O3: what each part of the decoder accepts is what R87's clause on its kind leaves. -/
theorem reservedWordsAreRefused : Obligations.ReservedWordsAreRefused := by
  intro k ws
  rw [← decode_isOk k]
  refine ⟨?_, fun hne hbad s => ?_⟩
  · rw [isOk_iff, Prod.exists]
  · obtain ⟨w, rest, rfl⟩ := List.exists_cons_of_ne_nil hne
    cases h : decode k (w :: rest) with
    | ok => simp [h] at hbad
    | error e => exact ⟨e, by simp [turn_transactions, runTransactions, h]⟩

/-- Settles O59, from the writes that the expansions make and the closed form of a run of ticks. -/
theorem pseudoOperations : Obligations.PseudoOperations := by
  intro k s w m n
  refine ⟨runChangesVia_of_run (runInstrs_ldt1 k w s) ?_, runChangesVia_of_run (runInstrs_write k _ .ie s) ?_,
    runChangesVia_of_run (runInstrs_write k _ .ie s) ?_, runChangesVia_of_run (runInstrs_write k m .ifr s) ?_,
    runChangesVia_of_run (runInstrs_ticks k n s) ?_⟩
  · refine ⟨pair_extract w, bytes_toNat w, fun j hj => ?_, rfl⟩
    rw [Via.loadTimer_ifr, bit_setBit _ _ _ _ hj]
    by_cases h6 : j = 6 <;> simp [t1Flag, h6]
  · exact ⟨rfl, fun j hj => bit_enableBits_set _ m hj⟩
  · exact ⟨rfl, fun j hj => bit_enableBits_clear _ m hj⟩
  · exact ⟨rfl, fun j hj => bit_clearFlags _ _ hj⟩
  · refine ⟨Via.ticks_frame _ n _ _, ?_, fun j hj => Via.ticks_flags _ n hj⟩
    rw [Via.ticks_count, Via.latches, pair_toNat]
    rfl

/-- Settles O4: the words written out are the encodings. -/
theorem specWordsDecode : Obligations.SpecWordsDecode :=
  ⟨decode_encode (.rdIfr .via1) [], decode_encode (.wrIe .via0 0x82#8) [0x3000#16], decode_encode (.peekUf .via0) [],
    decode_encode (.ctrlinCa1 .via0 true) [], decode_encode (.ginA .via0 0xA5#8) [], decode_encode (.ctrloutCb2 .via0) [],
    decode_encode (.hsetAtn .asserted) [], decode_encode (.hdio 0xFF#8) [], decode_encode (.cmd 0x08#8 0xFF#8) [],
    decode_encode (.input 0x08#8 0xFF#8) []⟩

/-- Settles O5: the turn taken is the first one queued, and `requeue` puts back the words left over. -/
theorem stepRunsTheDecodedInstruction : Obligations.StepRunsTheDecodedInstruction := by
  intro s k ws more queue i hq hd
  rw [step_of_inputs_cons hq]
  cases ws with
  | nil => cases hd
  | cons w ws =>
    simp only [takeInput, runTransactions, hd]
    cases more <;> rfl

/-- Settles O58: each line is read as its transaction, which the turn then issues. -/
theorem monitorLinesIssueTheirTransaction : Obligations.MonitorLinesIssueTheirTransaction := by
  refine fun s => ⟨fun row hrow => turn_line_of_issue ?_ s, rfl⟩
  revert row
  decide

end Sys2Proof.Machine
end

section
/-! The laws of the merge (R100 to R104), and what a Sync reads from and writes to the two connectors (R105, R190 to R198,
R210 to R212). -/

namespace Sys2Proof.Machine

/-! ## The signal algebra (R100 to R104) -/

theorem toTtl_iff (x : Signal) : toTtl x = true ↔ x ≠ .asserted := by simp [toTtl_eq_bne]

@[simp] theorem toTtl_fromTtl (t : Bool) : toTtl (fromTtl t) = t := by cases t <;> rfl

theorem fromTtl_ne_floating (t : Bool) : fromTtl t ≠ .floating := by cases t <;> simp [fromTtl]

/-- The merge decided by ASSERTED alone, so that its laws are those of `∨`. -/
theorem mergeSignal_eq_ite (a b : Signal) :
    mergeSignal a b = if a = .asserted ∨ b = .asserted then .asserted else .negated := by
  cases a <;> cases b <;> rfl

theorem mergeSignal_comm (a b : Signal) : mergeSignal a b = mergeSignal b a := by
  simp only [mergeSignal_eq_ite, or_comm]

theorem mergeSignal_assoc (a b c : Signal) : mergeSignal a (mergeSignal b c) = mergeSignal (mergeSignal a b) c := by
  rw [mergeSignal_eq_ite a (mergeSignal b c), mergeSignal_eq_ite (mergeSignal a b) c]
  simp only [mergeSignal_asserted_iff, or_assoc]

@[simp] theorem mergeBus_line (a b : BusState) (l : BusLine) :
    (mergeBus a b).line l = mergeSignal (a.line l) (b.line l) := by cases l <;> rfl

@[simp] theorem mergeBus_dio (a b : BusState) : (mergeBus a b).dio = a.dio ||| b.dio := rfl

/-- A bus state is its eight lines and its byte. -/
theorem BusState.eq_of_lines {a b : BusState} (hl : ∀ l, a.line l = b.line l) (hd : a.dio = b.dio) : a = b := by
  cases a
  cases b
  simp only [BusState.mk.injEq]
  exact ⟨hl .dav, hl .eoi, hl .ndac, hl .nrfd, hl .srq, hl .atn, hl .ren, hl .ifc, hd⟩

theorem mergeBus_comm (a b : BusState) : mergeBus a b = mergeBus b a :=
  BusState.eq_of_lines (fun l => by rw [mergeBus_line, mergeBus_line, mergeSignal_comm]) (BitVec.or_comm _ _)

theorem mergeBus_assoc (a b c : BusState) : mergeBus a (mergeBus b c) = mergeBus (mergeBus a b) c :=
  BusState.eq_of_lines (fun l => by simp only [mergeBus_line, mergeSignal_assoc]) (BitVec.or_assoc _ _ _).symm

/-! ## The connectors' reads and the incoming latch (R190 to R193, R210 to R212) -/

@[simp] theorem hostRead_line (h : HostConnector) (l : BusLine) : (hostRead h).line l = h.out.line l := by cases l <;> rfl

@[simp] theorem hostWrite_inp_line (h : HostConnector) (m : BusState) (l : BusLine) :
    (hostWrite h m).inp.line l = m.line l := by cases l <;> rfl

/-- The gate asserts NRFD and NDAC, whatever their own bits drive (R192). -/
theorem Via.gated_asserted_iff (v : Via) (n : Nat) :
    (if v.gate then .asserted else v.drivenByBit n) = Signal.asserted ↔
      (bit v.pb 0 && bit v.ddrb 0) ≠ v.ca1 ∨ (bit v.ddrb n = true ∧ bit v.pb n = false) := by
  rw [← Via.gate_iff, ← Via.drivenByBit_asserted_iff]
  cases v.gate <;> simp

/-- Each line of the latch is the merge of what the two ends drove before the Sync. -/
theorem State.syncCable_inp_line (s : State) (l : BusLine) :
    s.syncCable.host.inp.line l = mergeSignal (s.host.out.line l) ((driveRead s.via0).line l) := by
  rw [State.syncCable_host, hostWrite_inp_line, mergeBus_line, hostRead_line]

theorem State.syncCable_inp_noneFloating (s : State) : s.syncCable.host.inp.NoneFloating := fun l => by
  rw [State.syncCable_inp_line]
  exact mergeSignal_ne_floating _ _

theorem State.syncCable_inp_asserted_iff (s : State) (l : BusLine) :
    s.syncCable.host.inp.line l = .asserted ↔ s.host.out.line l = .asserted ∨ (driveRead s.via0).line l = .asserted := by
  rw [State.syncCable_inp_line, mergeSignal_asserted_iff]

/-- A byte is natural in the latches and merged in bus form: a 1 needs the host's 1 and no high output of Port A. -/
theorem State.syncCable_inp_dio_bit (s : State) {n : Nat} (h : n < 8) :
    bit s.syncCable.host.inp.dio n = (bit s.host.out.dio n && !(bit s.via0.pa n && bit s.via0.ddra n)) := by
  simp [hostWrite, hostRead, driveRead, Via.portOut, Via.port, Via.direction, bit_not _ _ h]

/-! ## What the Sync delivers to the drive (R194 to R198) -/

theorem Via.inputMode_of_pcr_eq {v w : Via} (h : w.pcr = v.pcr) (l : CtrlLine) : w.inputMode l = v.inputMode l := by
  cases l <;> simp [Via.inputMode, h]

theorem Via.polarity_of_pcr_eq {v w : Via} (h : w.pcr = v.pcr) (l : CtrlLine) : w.polarity l = v.polarity l := by
  cases l <;> simp [Via.polarity, h]

/-- A delivery raises its line's flag exactly when it moves the stored level in the direction that PCR selects. -/
theorem Via.ctrlIn_flag_bit_of_move (v : Via) (l : CtrlLine) (t : Bool) {n : Nat} (hn : n < 7) :
    bit (v.ctrlIn l t).ifr n = (bit v.ifr n ||
      (n == flagBit l && (v.ctrlIn l t).level l != v.level l && (v.ctrlIn l t).level l == v.polarity l)) := by
  rw [Via.ctrlIn_flag_bit _ _ _ _ hn, Via.ctrlIn_level]
  cases v.inputMode l <;> simp

/-- The byte for Port B: five bits are lines, the other three stay the register's (R194, R197). -/
theorem driveByte_bit (v : Via) (m : BusState) {n : Nat} (h : n < 8) :
    bit (driveByte v m) n =
      if n = 7 then m.atn == .asserted
      else if n = 1 then m.nrfd != .asserted
      else if n = 2 then m.ndac != .asserted
      else if n = 3 then m.eoi != .asserted
      else if n = 6 then m.dav != .asserted
      else bit v.pb n := by
  simp only [driveByte, bit_setBit _ _ _ _ h, toTtl_eq_bne, not_bne_asserted]
  interval_cases n <;> rfl

theorem driveWrite_pb_bit (v : Via) (m : BusState) {n : Nat} (h : n < 8) :
    bit (driveWrite v m).pb n = if bit v.ddrb n then bit v.pb n else bit (driveByte v m) n := by
  simp only [driveWrite, Via.portIn_a_pb, Via.ctrlIn_pb, Via.portIn_pb_bit _ _ _ h]

theorem driveWrite_pa_bit (v : Via) (m : BusState) {n : Nat} (h : n < 8) :
    bit (driveWrite v m).pa n = if bit v.ddra n then bit v.pa n else bit m.dio n := by
  simp only [driveWrite, Via.portIn_pa_bit _ _ _ h, Via.ctrlIn_ddra, Via.portIn_ddra, Via.ctrlIn_pa, Via.portIn_b_pa]

/-- CA1 has no output mode: it takes ATN, inverted (R195). -/
theorem driveWrite_level_ca1 (v : Via) (m : BusState) : (driveWrite v m).level .ca1 = (m.atn == .asserted) := by
  simp [driveWrite, Via.portIn_level, Via.ctrlIn_level, Via.inputMode, toTtl_eq_bne, not_bne_asserted]

/-- CA2 takes NRFD in input mode alone (R196, R163). -/
theorem driveWrite_level_ca2 (v : Via) (m : BusState) :
    (driveWrite v m).level .ca2 = if bit v.pcr Config.pcrCa2Out then v.level .ca2 else m.nrfd != .asserted := by
  cases h : bit v.pcr Config.pcrCa2Out <;>
    simp [driveWrite, Via.portIn_level, Via.ctrlIn_level, Via.inputMode, toTtl_eq_bne, h]

/-- The flags of CA1 and CA2 follow their levels' moves over the whole Sync (R195, R196). -/
theorem driveWrite_flag_bit (v : Via) (m : BusState) {n : Nat} (h : n < 7) :
    bit (driveWrite v m).ifr n = (bit v.ifr n ||
      (n == flagBit .ca1 && (driveWrite v m).level .ca1 != v.level .ca1 && (driveWrite v m).level .ca1 == v.polarity .ca1) ||
      (n == flagBit .ca2 && (driveWrite v m).level .ca2 != v.level .ca2 &&
        (driveWrite v m).level .ca2 == v.polarity .ca2)) := by
  simp [driveWrite, Via.ctrlIn_flag_bit_of_move _ _ _ h, Via.portIn_level, Via.ctrlIn_level,
    Via.polarity_of_pcr_eq (Via.ctrlIn_pcr _ _ _), Via.polarity_of_pcr_eq (Via.portIn_pcr _ _ _)]

/-- Nothing of the VIA but the ports, CA1, CA2 and the flags moves. -/
theorem driveWrite_frame (v : Via) (m : BusState) :
    { driveWrite v m with pb := v.pb, pa := v.pa, ca1 := v.ca1, ca2 := v.ca2, ifr := v.ifr } = v := by
  have hcb1 : (driveWrite v m).cb1 = v.cb1 := driveWrite_level v m .cb1 (by decide) (by decide)
  have hcb2 : (driveWrite v m).cb2 = v.cb2 := driveWrite_level v m .cb2 (by decide) (by decide)
  simp [hcb1, hcb2]

/-- The incoming latch holds the complement of the merged byte, so the bus-form byte is its complement (R37, R212). -/
theorem not_bit_hostWrite_inp_dio (h : HostConnector) (m : BusState) {n : Nat} (hn : n < 8) :
    (!bit (hostWrite h m).inp.dio n) = bit m.dio n := by
  simp [hostWrite, bit_not _ _ hn]

theorem decode_sync (k : ViaId) (rest : List Word) : decode k (0xA000#16 :: rest) = .ok (.sync, rest) :=
  decode_of_decodeOne k rest (K := 0xA#4) (S := 0x0#4) (D := 0x00#8) (by decide) (by decide) rfl

end Sys2Proof.Machine
end

section
/-! The obligations of the family on the signal algebra and the cable. -/

namespace Sys2Proof.Machine

/-- Settles O33: each line is the merge of the host's signal and the drive's, read before the Sync. -/
theorem syncFillsTheIncomingLatch : Obligations.SyncFillsTheIncomingLatch := by
  intro s
  refine ⟨s.syncCable, exec_sync s, s.syncCable_inp_noneFloating, ?nrfd, ?ndac, ?eoi, ?dav, ?released,
    fun n hn => s.syncCable_inp_dio_bit hn, rfl, rfl, rfl, rfl, rfl⟩
  case nrfd => exact (s.syncCable_inp_asserted_iff .nrfd).trans (or_congr_right (s.via0.gated_asserted_iff 1))
  case ndac => exact (s.syncCable_inp_asserted_iff .ndac).trans (or_congr_right (s.via0.gated_asserted_iff 2))
  case eoi => exact (s.syncCable_inp_asserted_iff .eoi).trans (or_congr_right (s.via0.drivenByBit_asserted_iff 3))
  case dav => exact (s.syncCable_inp_asserted_iff .dav).trans (or_congr_right (s.via0.drivenByBit_asserted_iff 6))
  case released =>
    intro l hl
    have hdrive : (driveRead s.via0).line l = .floating := by
      simp only [List.mem_cons, List.not_mem_nil, or_false] at hl
      obtain rfl | rfl | rfl | rfl := hl <;> rfl
    rw [State.syncCable_inp_asserted_iff, hdrive]
    simp

/-- Settles O34: the merged state that `DriveWrite` delivers is the one the latch holds, its byte complemented. -/
theorem syncDeliversToTheDrive : Obligations.SyncDeliversToTheDrive := by
  intro s
  refine ⟨s.syncCable, exec_sync s, fun n hn => ?pb, fun n hn => ?pa, driveWrite_level_ca1 _ _,
    driveWrite_level_ca2 _ _, fun n hn => driveWrite_flag_bit _ _ hn, driveWrite_frame _ _, decode_sync⟩
  case pb =>
    rw [State.syncCable_via0, driveWrite_pb_bit _ _ hn, driveByte_bit _ _ hn]
    rfl
  case pa => rw [State.syncCable_via0, driveWrite_pa_bit _ _ hn, State.syncCable_host, not_bit_hostWrite_inp_dio _ _ hn]

/-- Settles O32: the laws of two bus states are those of two signals, line by line, and of OR. -/
theorem wiredOrMergeLaws : Obligations.WiredOrMergeLaws := by
  refine ⟨toTtl_iff, fun t => ⟨toTtl_fromTtl t, fromTtl_ne_floating t⟩, mergeSignal_eq_ite, fun x => ?released,
    mergeSignal_comm, mergeSignal_assoc, mergeBus_line, fun a b n _ => ?dio, mergeBus_comm, mergeBus_assoc,
    mergeSignal_ne_floating _ _⟩
  case released => simp [mergeSignal_eq_ite]
  case dio => rw [mergeBus_dio, bit_or]

end Sys2Proof.Machine
end

section
/-! The register file behind the CPU path: the words of its transactions (R81, R82), the bits of what a read hands back, and the
effect of each access on the VIA, flag by flag (R121 to R147). -/

namespace Sys2Proof

/-! ## The words of the register transactions -/

section
variable (k : ViaId) (S : BitVec 4)

theorem decode_read (rest : List Word) :
    decode k (transactionWord 0x0#4 S 0x00#8 :: rest) = .ok (rdInstr k (regOf S.toNat), rest) :=
  decode_of_decodeOne k rest (by decide) (by decide) (by simp [decodeOne, decodeNoData])

theorem decode_peek (rest : List Word) :
    decode k (transactionWord 0x2#4 S 0x00#8 :: rest) = .ok (peekInstr k (regOf S.toNat), rest) :=
  decode_of_decodeOne k rest (by decide) (by decide) (by simp [decodeOne, decodeNoData])

/-- The data byte is added to the word of the register (R80). -/
theorem transactionWord_add (K : BitVec 4) (d : Byte) :
    transactionWord K S 0x00#8 + d.setWidth 16 = transactionWord K S d := by
  apply BitVec.eq_of_toNat_eq
  have := K.isLt
  have := S.isLt
  have := d.isLt
  rw [BitVec.toNat_add, transactionWord_toNat, transactionWord_toNat, BitVec.toNat_setWidth, BitVec.toNat_ofNat]
  omega

theorem decode_write (d : Byte) (rest : List Word) :
    decode k ((transactionWord 0x1#4 S 0x00#8 + d.setWidth 16) :: rest) = .ok (wrInstr k d (regOf S.toNat), rest) := by
  rw [transactionWord_add]
  exact decode_of_decodeOne k rest (by decide) (by decide) (decodeOne_write k S d)

end

end Sys2Proof

namespace Sys2Proof.Machine

/-! ## The bytes a read computes -/

/-- A byte of a computed bit 7 and seven stored ones. -/
theorem bit_sevenBits (x : BitVec 1) (y : BitVec 7) (n : Nat) :
    bit (w := 8) (x ++ y) n = if n < 7 then bit y n else bit x (n - 7) :=
  BitVec.getLsbD_append

theorem Via.bit_ifrByte (v : Via) {n : Nat} (h : n < 7) : bit v.ifrByte n = bit v.ifr n :=
  (bit_sevenBits _ _ n).trans (if_pos h)

theorem Via.bit_ifrByte_seven (v : Via) : bit v.ifrByte 7 = v.irq := by
  rw [Via.ifrByte, bit_sevenBits]
  cases v.irq <;> rfl

theorem Via.irq_iff (v : Via) : v.irq = true ↔ ∃ n, n < 7 ∧ bit v.ifr n = true ∧ bit v.ie n = true :=
  and_ne_zero_iff v.ifr v.ie

theorem Via.bit_ieByte (v : Via) {n : Nat} (h : n < 7) : bit v.ieByte n = bit v.ie n :=
  (bit_sevenBits _ _ n).trans (if_pos h)

theorem Via.bit_ieByte_seven (v : Via) : bit v.ieByte 7 = false :=
  bit_sevenBits 0#1 v.ie 7

theorem Via.bit_portOut (v : Via) (p : Port) (n : Nat) :
    bit (v.portOut p) n = (bit (v.port p) n && bit (v.direction p) n) :=
  bit_and _ _ n

/-! ## The flags an access clears -/

theorem Via.flagsLowered_lower (v : Via) (m : Nat) : FlagsLowered v (v.lower m) (· == m) := by
  intro n hn
  rw [Via.lower_ifr, bit_setBit _ _ _ _ hn]
  by_cases h : n = m <;> simp [h]

/-- `clearB` (R120). -/
theorem Via.flagsLowered_clearPortFlags_b (v : Via) :
    FlagsLowered v (v.clearPortFlags .b) (fun n => n == 4 || (n == 3 && !bit v.pcr 7)) :=
  fun n hn => Via.clearPortFlags_flags v .b n hn

/-- `clearA` (R120). -/
theorem Via.flagsLowered_clearPortFlags_a (v : Via) :
    FlagsLowered v (v.clearPortFlags .a) (fun n => n == 1 || (n == 0 && !bit v.pcr 3)) :=
  fun n hn => Via.clearPortFlags_flags v .a n hn

theorem Via.sameButFlags_clearPortFlags (v : Via) (p : Port) : SameButFlags v (v.clearPortFlags p) := by
  simp [SameButFlags]

/-! ## A port write -/

theorem Via.setPort_port (v : Via) (x : Byte) (p : Port) : (v.setPort x p).port p = x := by
  cases p <;> rfl

theorem Via.clearPortFlags_port (v : Via) (p q : Port) : (v.clearPortFlags p).port q = v.port q := by
  cases q
  · exact Via.clearPortFlags_pa v p
  · exact Via.clearPortFlags_pb v p

theorem Via.writePort_port_bit (v : Via) (p : Port) (d : Byte) {n : Nat} (h : n < 8) :
    bit ((v.writePort p d).port p) n = if bit (v.direction p) n then bit d n else bit (v.port p) n := by
  rw [Via.writePort, Via.clearPortFlags_port, Via.setPort_port, bit_or, bit_and, bit_and, bit_not _ _ h]
  cases bit (v.direction p) n <;> simp

/-- The clears are those of a read of the port: the write moves neither the flags nor the modes before them. -/
theorem Via.writePort_flag_bit (v : Via) (p : Port) (d : Byte) {n : Nat} (h : n < 7) :
    bit (v.writePort p d).ifr n = bit (v.clearPortFlags p).ifr n := by
  simp only [Via.writePort, Via.clearPortFlags_flags _ _ _ h, Via.setPort_ifr,
    Via.inputMode_of_pcr_eq (Via.setPort_pcr v _ p)]

/-- The other port stands, as does all else but the flags. -/
theorem Via.writePort_frame (v : Via) (p : Port) (d : Byte) :
    ({ v.writePort p d with ifr := v.ifr } : Via).setPort (v.port p) p = v := by
  cases p <;> simp [Via.writePort, Via.setPort, Via.port]

/-! ## Frames of the accesses -/

/-- A CPU write that leaves the VIA as it is changes nothing. -/
theorem exec_eq_self_of_cpuWrite {i : Instr} {s : State} {k : ViaId} {d : Byte} {r : Reg}
    (h : exec i s = .next (s.cpuWrite k d r)) (hw : (s.via k).write d r = s.via k) : exec i s = .next s := by
  rw [h, State.cpuWrite, hw, State.setVia_self]

/-- A run of two transactions. -/
theorem runInstrs_pair {i j : Instr} {s t u : State} (hi : exec i s = .next t) (hj : exec j t = .next u) :
    runInstrs [i, j] s = .next u :=
  (runInstrs_cons_of_next [j] hi).trans (runInstrs_cons_of_next [] hj)

/-- The word of `PEEK` at offset `S`, the `PEEK` and the CPU read of the same register (R147). -/
def peekRow (k : ViaId) (S : BitVec 4) : Word × Instr × Instr :=
  (transactionWord 0x2#4 S 0x00#8, peekInstr k (regOf S.toNat), rdInstr k (regOf S.toNat))

/-- At each offset `PEEK` and `RD` hand back the same byte, and `PEEK` changes nothing of the block. -/
theorem peekRow_answers (k : ViaId) (S : BitVec 4) (s : State) :
    (∃ t, exec (peekRow k S).2.2 s = .next t ∧ AnswersOnly (peekRow k S).2.1 s t.io.ret) ∧
      ∀ rest, decode k ((peekRow k S).1 :: rest) = .ok ((peekRow k S).2.1, rest) :=
  ⟨⟨_, exec_rdInstr k _ s, exec_peekInstr k _ s⟩, decode_peek k S⟩

end Sys2Proof.Machine
end

section
/-! The obligations of the family on the register file. -/

namespace Sys2Proof.Machine

/-- Settles O6, from the flags and the frame of `clearB` and `clearA`. -/
theorem portReads : Obligations.PortReads := fun k s rest =>
  ⟨readsVia_of_exec (exec_rdPb k s) ⟨Via.sameButFlags_clearPortFlags _ _, Via.flagsLowered_clearPortFlags_b _⟩,
    readsVia_of_exec (exec_rdPa k s) ⟨Via.sameButFlags_clearPortFlags _ _, Via.flagsLowered_clearPortFlags_a _⟩,
    decode_read k 0x0#4 rest, decode_read k 0x1#4 rest⟩

/-- Settles O7: the two halves put together are the counter. -/
theorem timerCounterReads : Obligations.TimerCounterReads := fun k s rest =>
  ⟨lowByte (s.via k).t1c, highByte (s.via k).t1c, bytes_toNat _,
    readsVia_of_exec (exec_rdT1lo k s) ⟨rfl, Via.flagsLowered_lower _ t1Flag⟩,
    answersOnly_of_cpuRead (exec_rdT1hi k s) rfl, decode_read k 0x4#4 rest, decode_read k 0x5#4 rest⟩

/-- Settles O8: none of the six has a side effect. -/
theorem plainRegisterReads : Obligations.PlainRegisterReads := fun k s rest =>
  ⟨answersOnly_of_cpuRead (exec_rdDdrb k s) rfl, decode_read k 0x2#4 rest,
    answersOnly_of_cpuRead (exec_rdDdra k s) rfl, decode_read k 0x3#4 rest,
    answersOnly_of_cpuRead (exec_rdT1llo k s) rfl, decode_read k 0x6#4 rest,
    answersOnly_of_cpuRead (exec_rdT1lhi k s) rfl, decode_read k 0x7#4 rest,
    answersOnly_of_cpuRead (exec_rdAcr k s) rfl, decode_read k 0xB#4 rest,
    answersOnly_of_cpuRead (exec_rdPcr k s) rfl, decode_read k 0xC#4 rest⟩

/-- Settles O9, from the bits of the two bytes; bit 7 of IFR is the VIA's IRQ. -/
theorem interruptRegisterReads : Obligations.InterruptRegisterReads := by
  intro k s rest
  refine ⟨(s.via k).ifrByte, (s.via k).ieByte, answersOnly_of_cpuRead (exec_rdIfr k s) rfl,
    answersOnly_of_cpuRead (exec_rdIe k s) rfl, fun n hn => Via.bit_ifrByte _ hn, ?irq, ?legal,
    fun n hn => Via.bit_ieByte _ hn, Via.bit_ieByte_seven _, decode_read k 0xD#4 rest, decode_read k 0xE#4 rest⟩
  case irq => rw [Via.bit_ifrByte_seven, Via.irq_iff]
  case legal =>
    rintro ⟨h2, h5⟩
    exact ⟨(Via.bit_ifrByte _ (by decide)).trans h2, (Via.bit_ifrByte _ (by decide)).trans h5⟩

/-- Settles O10: a read of an undefined offset is without a side effect, and a write leaves the VIA as it is. -/
theorem undefinedOffsets : Obligations.UndefinedOffsets := by
  intro k d s
  refine ⟨?words, answersOnly_of_cpuRead (exec_rdU8 k s) rfl, answersOnly_of_cpuRead (exec_rdU9 k s) rfl,
    answersOnly_of_cpuRead (exec_rdUa k s) rfl, answersOnly_of_cpuRead (exec_rdUf k s) rfl,
    exec_eq_self_of_cpuWrite (exec_wrU8 k d s) rfl, exec_eq_self_of_cpuWrite (exec_wrU9 k d s) rfl,
    exec_eq_self_of_cpuWrite (exec_wrUa k d s) rfl, exec_eq_self_of_cpuWrite (exec_wrUf k d s) rfl⟩
  case words =>
    simp only [List.forall_mem_cons]
    exact ⟨decode_read k 0x8#4, decode_read k 0x9#4, decode_read k 0xA#4, decode_read k 0xF#4,
      decode_write k 0x8#4 d, decode_write k 0x9#4 d, decode_write k 0xA#4 d, decode_write k 0xF#4 d, nofun⟩

/-- Settles O12: bit by bit the port and the flags, and the frame. -/
theorem portWrites : Obligations.PortWrites := fun k d s =>
  ⟨changesVia_of_exec (exec_wrPb k d s) ⟨fun _ hn => Via.writePort_port_bit _ .b d hn,
      fun n hn => (Via.writePort_flag_bit _ .b d hn).trans (Via.flagsLowered_clearPortFlags_b _ n hn),
      Via.writePort_frame _ .b d⟩,
    changesVia_of_exec (exec_wrPa k d s) ⟨fun _ hn => Via.writePort_port_bit _ .a d hn,
      fun n hn => (Via.writePort_flag_bit _ .a d hn).trans (Via.flagsLowered_clearPortFlags_a _ n hn),
      Via.writePort_frame _ .a d⟩,
    decode_write k 0x0#4 d, decode_write k 0x1#4 d⟩

/-- Settles O13: `GOUT` computes its byte from the direction register that the write has just replaced. -/
theorem directionWrites : Obligations.DirectionWrites := by
  intro k d s
  refine ⟨changesVia_of_exec (exec_wrDdrb k d s) rfl, changesVia_of_exec (exec_wrDdra k d s) rfl,
    ⟨_, _, runInstrs_pair (exec_wrDdrb k d s) (exec_goutB k _), rfl, fun n _ => ?goutB⟩,
    ⟨_, _, runInstrs_pair (exec_wrDdra k d s) (exec_goutA k _), rfl, fun n _ => ?goutA⟩,
    decode_write k 0x2#4 d, decode_write k 0x3#4 d⟩
  case goutB | goutA =>
    rw [State.cpuWrite, State.setVia_via, Via.bit_portOut]
    rfl

/-- Settles O14: the two offsets write the same latch. -/
theorem lowLatchWrites : Obligations.LowLatchWrites := fun k d s =>
  ⟨changesVia_of_exec (exec_wrT1lo k d s) rfl, changesVia_of_exec (exec_wrT1llo k d s) rfl,
    decode_write k 0x4#4 d, decode_write k 0x6#4 d⟩

/-- Settles O15: the load takes the high latch's new byte and the low latch as it stands. -/
theorem highLatchWrites : Obligations.HighLatchWrites := fun k d s =>
  ⟨changesVia_of_exec (exec_wrT1hi k d s) ⟨rfl, pair_toNat d (s.via k).t1ll, Via.flagsLowered_lower _ t1Flag, rfl⟩,
    changesVia_of_exec (exec_wrT1lhi k d s) ⟨rfl, Via.flagsLowered_lower _ t1Flag, rfl⟩,
    decode_write k 0x5#4 d, decode_write k 0x7#4 d⟩

/-- Settles O16: each write replaces its one register. -/
theorem controlRegisterWrites : Obligations.ControlRegisterWrites := fun k d s =>
  ⟨changesVia_of_exec (exec_wrAcr k d s) rfl, changesVia_of_exec (exec_wrPcr k d s) rfl,
    decode_write k 0xB#4 d, decode_write k 0xC#4 d⟩

/-- Settles O17, from the bits of `clearFlags`. -/
theorem flagRegisterWrite : Obligations.FlagRegisterWrite := fun k d s =>
  ⟨changesVia_of_exec (exec_wrIfr k d s) ⟨rfl, fun _ hn => bit_clearFlags _ d hn⟩, decode_write k 0xD#4 d⟩

/-- Settles O18, from the bits of `enableBits`. -/
theorem enableRegisterWrite : Obligations.EnableRegisterWrite := by
  refine fun k d s => ⟨changesVia_of_exec (exec_wrIe k d s) ⟨rfl, fun n hn => ?_⟩, decode_write k 0xE#4 d⟩
  rw [Via.write, bit_enableBits _ d hn]
  cases bit d 7 <;> cases bit d n <;> simp

/-- Settles O19: the rows are those of the sixteen offsets, in order. -/
theorem peekReadsWithoutSideEffect : Obligations.PeekReadsWithoutSideEffect := by
  intro k s
  change ∀ row ∈ List.ofFn (fun n : Fin 16 => peekRow k (BitVec.ofFin n)), _
  exact List.forall_mem_ofFn_iff.2 fun n => peekRow_answers k (BitVec.ofFin n) s

end Sys2Proof.Machine
end

section
/-! Timer 1 round by round (R160, R175), a delivery on a control line field by field (R161, R163), the level `CTRLOUT` hands
back (R164), the port registers after a delivery (R170, R173), and the aggregated interrupt line (R40, R172). -/

namespace Sys2Proof

/-! ## Words with a data byte -/

/-- A word whose data byte is an operand: the byte is added to the word of the selector (R80). -/
theorem decode_dataByte (k : ViaId) (K S : BitVec 4) {d : Byte} {i : Instr} (hC : K ≠ 0xC#4) (hE : K ≠ 0xE#4)
    (h : decodeOne k (transactionWord K S d) = .ok i) (rest : List Word) :
    decode k ((transactionWord K S 0x00#8 + d.setWidth 16) :: rest) = .ok (i, rest) := by
  rw [transactionWord_add]
  exact decode_of_decodeOne k rest hC hE h

/-- `CTRLIN` (R84). -/
theorem decode_ctrlin (k : ViaId) (t : Bool) {S : BitVec 4} {i : Instr} (h : ctrlinInstr k t S.toNat = some i)
    (rest : List Word) :
    decode k ((transactionWord 0x4#4 S 0x00#8 + if t then 1#16 else 0#16) :: rest) = .ok (i, rest) := by
  have hcode : (if t then 1#16 else 0#16) = (levelCode t).setWidth 16 := by cases t <;> rfl
  have hlevel : levelOf (levelCode t) = some t := by cases t <;> rfl
  rw [hcode]
  exact decode_dataByte k 0x4#4 S (by decide) (by decide) (by simp [decodeOne, decodeCtrlin, hlevel, h]) rest

/-- `IRQLINE` asks for no one VIA: its word is read alike at both (R81). -/
theorem decode_irqline (k : ViaId) (rest : List Word) : decode k (0x8100#16 :: rest) = .ok (.irqline, rest) :=
  decode_of_decodeOne k rest (K := 0x8#4) (S := 0x1#4) (D := 0x00#8) (by decide) (by decide) rfl

end Sys2Proof

namespace Sys2Proof.Machine

/-! ## Timer 1 -/

/-- In one-shot mode the counter runs down once. -/
theorem countAfter_false (l c n : Nat) : countAfter false l c n = c - n := by
  simp [countAfter]

/-- In continuous mode, loaded from the latches, every round is alike. -/
theorem countAfter_rounds {l : Nat} (n : Nat) (h : 0 < l) : countAfter true l l n = l - n % l := by
  obtain hlt | hle := Nat.lt_or_ge n l
  · rw [countAfter_of_lt true l hlt, Nat.mod_eq_of_lt hlt]
  · obtain ⟨m, rfl⟩ := Nat.exists_eq_add_of_le hle
    rw [countAfter_continuous l m h, Nat.add_mod_left]

/-- A round's last tick is the one after which a multiple of the round's length has passed. -/
theorem sub_mod_eq_one_iff {l : Nat} (n : Nat) (h : 0 < l) : l - n % l = 1 ↔ l ∣ n + 1 := by
  have hlt : n % l < l := Nat.mod_lt n h
  have hdvd : l ∣ n + 1 ↔ l ∣ n % l + 1 := by
    rw [Nat.dvd_iff_mod_eq_zero, Nat.dvd_iff_mod_eq_zero, Nat.mod_add_mod]
  rw [hdvd]
  constructor
  · intro h1
    rw [show n % l + 1 = l by omega]
  · intro hd
    have := Nat.le_of_dvd (Nat.succ_pos _) hd
    omega

/-- The counter, loaded from the latches with `l`, stands at 1 before tick `n + 1` exactly when that tick ends a round. -/
theorem countAfter_eq_one_iff (continuous : Bool) {l : Nat} (n : Nat) (h : 0 < l) :
    countAfter continuous l l n = 1 ↔ if continuous then l ∣ n + 1 else n + 1 = l := by
  cases continuous with
  | false =>
    rw [countAfter_false, if_neg Bool.false_ne_true]
    omega
  | true => rw [countAfter_rounds n h, sub_mod_eq_one_iff n h, if_pos rfl]

/-- With the T1 flag cleared before it, a tick leaves the flag set exactly when it finds the counter at 1. -/
theorem Via.bit_tick_lower_ifr (v : Via) : bit (v.lower t1Flag).tick.ifr 6 = true ↔ v.t1c.toNat = 1 := by
  have hlow : bit (v.lower t1Flag).ifr 6 = false := bit_setBit_same v.ifr 6 false (by decide)
  rw [Via.bit_tick_ifr _ (by decide), hlow, beq_self_eq_true, Bool.true_and, Bool.false_or]
  exact decide_eq_true_iff

/-- Once the timer is loaded, its latches hold the load, and the ticks run it down from there. -/
theorem Via.ticks_loadTimer_count (v : Via) (d : Byte) (n : Nat) :
    (Via.tick^[n] (v.loadTimer d)).t1c.toNat =
      countAfter v.continuous (d.toNat * 256 + v.t1ll.toNat) (d.toNat * 256 + v.t1ll.toNat) n := by
  rw [Via.ticks_count, ← pair_toNat]
  rfl

/-- A load and the ticks after it. -/
theorem runInstrs_load_ticks (k : ViaId) (d : Byte) (n : Nat) (s : State) :
    runInstrs ([.wrT1hi k d] ++ List.replicate n (.tick k)) s =
      .next (s.setVia (Via.tick^[n] ((s.via k).loadTimer d)) k) := by
  have hload : exec (.wrT1hi k d) s = .next (s.setVia ((s.via k).loadTimer d) k) := exec_wrT1hi k d s
  rw [List.singleton_append, runInstrs_cons_of_next _ hload, runInstrs_ticks, State.setVia_setVia, State.setVia_via]

/-! ## Control lines -/

theorem Via.ctrlIn_level_self (v : Via) (l : CtrlLine) (t : Bool) :
    (v.ctrlIn l t).level l = if v.inputMode l then t else v.level l := by
  simp [Via.ctrlIn_level]

/-- The same by the output mode bit, as PCR holds it. -/
theorem Via.ctrlIn_level_of_outputBit (v : Via) {l : CtrlLine} {out : Bool} (t : Bool) (h : v.inputMode l = !out) :
    (v.ctrlIn l t).level l = if out then v.level l else t := by
  rw [Via.ctrlIn_level_self, h]
  cases out <;> rfl

theorem Via.ctrlIn_flag_bit_of_inputMode (v : Via) {l : CtrlLine} (t : Bool) (h : v.inputMode l = true) {n : Nat}
    (hn : n < 7) :
    bit (v.ctrlIn l t).ifr n = (bit v.ifr n || (n == flagBit l && t != v.level l && t == v.polarity l)) := by
  rw [Via.ctrlIn_flag_bit _ _ _ _ hn, h, Bool.and_true]

/-- A delivery moves its line's level and the flags alone. -/
theorem Via.ctrlIn_frame (v : Via) (l : CtrlLine) (t : Bool) :
    ({ v.ctrlIn l t with ifr := v.ifr } : Via).setLevel (v.level l) l = v := by
  unfold Via.ctrlIn
  split
  case isTrue => cases l <;> rfl
  case isFalse =>
    split
    case isTrue => cases l <;> rfl
    case isFalse => split <;> cases l <;> rfl

theorem State.controlOutput_of_outputMode {s : State} {k : ViaId} {l : OutLine}
    (h : (s.via k).inputMode (outLine l) = false) :
    s.controlOutput k l = .next (s.returning (.level ((s.via k).polarity (outLine l)))) := by
  simp [State.controlOutput, Via.ctrlOut, h]

theorem State.controlOutput_of_inputMode {s : State} {k : ViaId} {l : OutLine}
    (h : (s.via k).inputMode (outLine l) = true) : s.controlOutput k l = .refused (.controlOutputUndefined l) := by
  simp [State.controlOutput, Via.ctrlOut, h]

/-! ## Ports -/

/-- Masked with the direction again, a merge by direction is the part that the direction lets through. -/
theorem merge_and_direction (x p d : Byte) : ((x &&& ~~~d) ||| (p &&& d)) &&& d = p &&& d := by
  refine eq_of_bit_eq _ _ fun n hn => ?_
  simp only [bit_and, bit_or, bit_not _ _ hn]
  cases bit d n <;> simp

theorem Via.portIn_port (v : Via) (q : Port) (e : Byte) :
    (v.portIn q e).port q = (e &&& ~~~v.direction q) ||| (v.port q &&& v.direction q) :=
  Via.setPort_port v _ q

theorem Via.portIn_direction (v : Via) (q r : Port) (e : Byte) : (v.portIn q e).direction r = v.direction r := by
  cases r <;> simp [Via.direction]

/-- A delivery reaches no output bit. -/
theorem Via.portIn_portOut (v : Via) (q : Port) (e : Byte) : (v.portIn q e).portOut q = v.portOut q := by
  rw [Via.portOut, Via.portIn_port, Via.portIn_direction, merge_and_direction, Via.portOut]

theorem Via.writePort_port (v : Via) (q : Port) (p : Byte) :
    (v.writePort q p).port q = (v.port q &&& ~~~v.direction q) ||| (p &&& v.direction q) := by
  rw [Via.writePort, Via.clearPortFlags_port, Via.setPort_port]

theorem Via.writePort_direction (v : Via) (q r : Port) (p : Byte) : (v.writePort q p).direction r = v.direction r := by
  cases r <;> simp [Via.direction]

theorem Via.setDirection_direction (v : Via) (d : Byte) (q : Port) : (v.setDirection d q).direction q = d := by
  cases q <;> rfl

/-- A direction, a port byte and a delivery, written to one port in that order (R173). -/
def Via.portSetup (v : Via) (q : Port) (d p e : Byte) : Via := ((v.setDirection d q).writePort q p).portIn q e

/-- The port law on the register itself. -/
theorem Via.portSetup_port (v : Via) (q : Port) (d p e : Byte) :
    (v.portSetup q d p e).port q = (e &&& ~~~d) ||| (p &&& d) := by
  rw [Via.portSetup, Via.portIn_port, Via.writePort_direction, Via.setDirection_direction, Via.writePort_port,
    Via.setDirection_direction, merge_and_direction]

/-- The registers of a port, and the delivery on it. -/
def portReg : Port → Reg
  | .a => .pa
  | .b => .pb

def directionReg : Port → Reg
  | .a => .ddra
  | .b => .ddrb

def ginInstr (k : ViaId) (e : Byte) : Port → Instr
  | .a => .ginA k e
  | .b => .ginB k e

theorem Via.peek_portReg (v : Via) (q : Port) : v.peek (portReg q) = v.port q := by cases q <;> rfl

theorem Via.write_portReg (v : Via) (p : Byte) (q : Port) : v.write p (portReg q) = v.writePort q p := by cases q <;> rfl

theorem Via.write_directionReg (v : Via) (d : Byte) (q : Port) : v.write d (directionReg q) = v.setDirection d q := by
  cases q <;> rfl

theorem exec_ginInstr (k : ViaId) (e : Byte) (q : Port) (s : State) :
    exec (ginInstr k e q) s = .next (s.setVia ((s.via k).portIn q e) k) := by cases q <;> rfl

/-- The three transactions of the port law. -/
def portSetupInstrs (k : ViaId) (d p e : Byte) (q : Port) : List Instr :=
  [wrInstr k d (directionReg q), wrInstr k p (portReg q), ginInstr k e q]

theorem runInstrs_portSetup (k : ViaId) (q : Port) (d p e : Byte) (s : State) :
    runInstrs (portSetupInstrs k d p e q) s = .next (s.setVia ((s.via k).portSetup q d p e) k) := by
  rw [portSetupInstrs, runInstrs_cons_of_next _ (exec_wrInstr k d _ s),
    runInstrs_pair (exec_wrInstr k p _ _) (exec_ginInstr k e q _)]
  simp only [State.cpuWrite, Via.write_directionReg, Via.write_portReg, State.setVia_via, State.setVia_setVia, Via.portSetup]

/-- The port law, for whichever transaction hands the port register back. -/
theorem portSetup_readback (k : ViaId) (q : Port) (d p e : Byte) (s : State) {j : Instr}
    (hj : ∀ t, ∃ u, exec j t = .next u ∧ u.io.ret = .byte ((t.via k).peek (portReg q))) :
    ∃ t, runInstrs (portSetupInstrs k d p e q ++ [j]) s = .next t ∧ t.io.ret = .byte ((e &&& ~~~d) ||| (p &&& d)) := by
  obtain ⟨u, hu, hret⟩ := hj (s.setVia ((s.via k).portSetup q d p e) k)
  refine ⟨u, ?run, ?ret⟩
  case run =>
    rw [runInstrs_append_of_next _ (runInstrs_portSetup k q d p e s)]
    exact runInstrs_cons_of_next [] hu
  case ret => rw [hret, State.setVia_via, Via.peek_portReg, Via.portSetup_port]

/-! ## The interrupt line -/

theorem State.irqLine_iff (s : State) : s.irqLine = true ↔ ∃ k, (s.via k).irq = true := by
  rw [State.irqLine, Bool.or_eq_true]
  constructor
  · rintro (h | h)
    · exact ⟨.via0, h⟩
    · exact ⟨.via1, h⟩
  · rintro ⟨_ | _, h⟩
    · exact .inl h
    · exact .inr h

end Sys2Proof.Machine
end

section
/-! The obligations of the family on the timer, the control lines, the GPIO side and the interrupt queries. -/

namespace Sys2Proof.Machine

/-- Settles O21: the last tick sets the flag when it finds the counter at 1, and that is where a round of `N` ticks ends. -/
theorem timerLaw : Obligations.TimerLaw := by
  intro k d s n hpos
  refine ⟨_, (runInstrs_append_of_next _ (runInstrs_load_ticks k d n s)).trans
    (runInstrs_pair (exec_rdT1lo k _) (exec_tick k _)), ?flag⟩
  case flag =>
    simp only [State.cpuRead, Via.afterRead, State.returning_via, State.setVia_via]
    rw [Via.bit_tick_lower_ifr, Via.ticks_loadTimer_count, countAfter_eq_one_iff _ n hpos, Via.continuous]

/-- Settles O23: CA1 and CB1 are always in input mode, CA2 and CB2 while their PCR output bit is 0. -/
theorem controlLineInput : Obligations.ControlLineInput := fun k t s =>
  ⟨changesVia_of_exec (exec_ctrlinCa1 k t s) ⟨Via.ctrlIn_level_self _ .ca1 t, Via.ctrlIn_frame _ .ca1 t,
      fun _ hn => Via.ctrlIn_flag_bit_of_inputMode _ (l := .ca1) t rfl hn⟩,
    changesVia_of_exec (exec_ctrlinCb1 k t s) ⟨Via.ctrlIn_level_self _ .cb1 t, Via.ctrlIn_frame _ .cb1 t,
      fun _ hn => Via.ctrlIn_flag_bit_of_inputMode _ (l := .cb1) t rfl hn⟩,
    changesVia_of_exec (exec_ctrlinCa2 k t s) ⟨Via.ctrlIn_level_of_outputBit _ (l := .ca2) t rfl,
      Via.ctrlIn_frame _ .ca2 t, fun n hn => Via.ctrlIn_flag_bit _ .ca2 t n hn⟩,
    changesVia_of_exec (exec_ctrlinCb2 k t s) ⟨Via.ctrlIn_level_of_outputBit _ (l := .cb2) t rfl,
      Via.ctrlIn_frame _ .cb2 t, fun n hn => Via.ctrlIn_flag_bit _ .cb2 t n hn⟩,
    decode_ctrlin k t (S := 0x1#4) rfl, decode_ctrlin k t (S := 0x4#4) rfl,
    decode_ctrlin k t (S := 0x0#4) rfl, decode_ctrlin k t (S := 0x3#4) rfl⟩

/-- Settles O28: `RD` and `PEEK` hand back the same register. -/
theorem portLaw : Obligations.PortLaw := by
  intro k s d p e
  simp only [List.forall_mem_cons]
  exact ⟨portSetup_readback k .a d p e s fun t => ⟨_, exec_rdPa k t, rfl⟩,
    portSetup_readback k .a d p e s fun t => ⟨_, exec_peekPa k t, rfl⟩,
    portSetup_readback k .b d p e s fun t => ⟨_, exec_rdPb k t, rfl⟩,
    portSetup_readback k .b d p e s fun t => ⟨_, exec_peekPb k t, rfl⟩, nofun⟩

/-- Settles O20, from the counter, the flags and the frame of a tick. -/
theorem tickOnce : Obligations.TickOnce := by
  refine fun k s => ⟨changesVia_of_exec (exec_tick k s)
    ⟨Via.tick_frame _ _ _, ?count, fun _ hn => Via.bit_tick_ifr _ hn⟩, decode_encode (.tick k)⟩
  case count => rw [Via.tick_count, Via.continuous, Via.latches, pair_toNat]

/-- Settles O24: the mode decides between the polarity bit and the refusal. -/
theorem controlLineOutput : Obligations.ControlLineOutput := fun k _ =>
  ⟨fun h => State.controlOutput_of_outputMode (l := .ca2) (congrArg Bool.not h),
    fun h => State.controlOutput_of_outputMode (l := .cb2) (congrArg Bool.not h),
    fun h => State.controlOutput_of_inputMode (l := .ca2) (congrArg Bool.not h),
    fun h => State.controlOutput_of_inputMode (l := .cb2) (congrArg Bool.not h),
    decode_encode (.ctrloutCa2 k), decode_encode (.ctrloutCb2 k)⟩

/-- Settles O26, from the bits of the port and the outputs after a delivery. -/
theorem gpioInput : Obligations.GpioInput := fun k e s =>
  ⟨changesVia_of_exec (exec_ginB k e s) ⟨rfl, Via.portIn_pb_bit _ e, Via.portIn_portOut _ .b e⟩,
    changesVia_of_exec (exec_ginA k e s) ⟨rfl, Via.portIn_pa_bit _ e, Via.portIn_portOut _ .a e⟩,
    decode_dataByte k 0x5#4 0x0#4 (by decide) (by decide) (decodeOne_ginB k e),
    decode_dataByte k 0x5#4 0x1#4 (by decide) (by decide) (decodeOne_ginA k e)⟩

/-- Settles O27, from the bits of `PortOut`. -/
theorem gpioOutput : Obligations.GpioOutput := fun k s =>
  ⟨_, _, exec_goutB k s, exec_goutA k s, fun n _ => Via.bit_portOut _ .b n, fun n _ => Via.bit_portOut _ .a n,
    decode_encode (.goutB k), decode_encode (.goutA k)⟩

/-- Settles O29: the aggregated line is the disjunction of the two VIAs' levels. -/
theorem interruptQueries : Obligations.InterruptQueries := by
  refine fun s => ⟨fun k => (s.via k).irq, s.irqLine, fun k => ⟨exec_chkirq k s, Via.irq_iff _⟩, exec_irqline s, ?line,
    fun k => decode_encode (.chkirq k), decode_irqline⟩
  case line => simp only [State.irqLine_iff, Via.irq_iff]

end Sys2Proof.Machine
end

section
/-! The gate's latency (R192, R200), and what a turn of either agent does to a VIA: to the lines that nothing is connected to,
nothing (R199). -/

namespace Sys2Proof.Machine

/-! ## The gate (R192, R200) -/

/-- A line of the latch is NEGATED exactly when neither end asserted it: the merge leaves none FLOATING. -/
theorem State.syncCable_inp_negated_iff (s : State) (l : BusLine) :
    s.syncCable.host.inp.line l = .negated ↔ s.host.out.line l ≠ .asserted ∧ (driveRead s.via0).line l ≠ .asserted := by
  have hasserted := s.syncCable_inp_asserted_iff l
  have hfloating := s.syncCable_inp_noneFloating l
  rw [← not_or, ← hasserted]
  cases h : s.syncCable.host.inp.line l <;> simp_all

/-- An input bit counts as 0 before and after a Sync, and an output bit stands: ATNA is the CPU's alone. -/
theorem driveWrite_atna (v : Via) (m : BusState) :
    (bit (driveWrite v m).pb 0 && bit (driveWrite v m).ddrb 0) = (bit v.pb 0 && bit v.ddrb 0) := by
  rw [driveWrite_ddrb, driveWrite_pb_bit v m (by decide)]
  cases bit v.ddrb 0 <;> simp

/-- After a Sync the gate compares ATNA with the ATN level which that Sync delivered. -/
theorem State.syncCable_gate_iff (s : State) : s.syncCable.via0.gate = true ↔
    (bit s.via0.pb 0 && bit s.via0.ddrb 0) ≠ (s.syncCable.host.inp.atn == .asserted) := by
  have hca1 : s.syncCable.via0.ca1 = (s.syncCable.host.inp.atn == .asserted) := driveWrite_level_ca1 _ _
  rw [Via.gate_iff, hca1, State.syncCable_via0, driveWrite_atna]

/-- While the gate does not force it, the line of an input bit, or of an output bit at 1, is not asserted. -/
theorem Via.gated_ne_asserted {v : Via} {n : Nat} (hgate : v.gate = false) (hn : bit v.ddrb n = true → bit v.pb n = true) :
    (if v.gate then .asserted else v.drivenByBit n) ≠ Signal.asserted := by
  rw [hgate, if_neg Bool.false_ne_true, Ne, Via.drivenByBit_asserted_iff]
  rintro ⟨hout, hlow⟩
  exact Bool.false_ne_true (hlow.symm.trans (hn hout))

/-- A gate that is true asserts NRFD and NDAC. -/
theorem State.syncCable_inp_of_gate {s : State} (h : s.via0.gate = true) :
    s.syncCable.host.inp.nrfd = .asserted ∧ s.syncCable.host.inp.ndac = .asserted :=
  ⟨(s.syncCable_inp_asserted_iff .nrfd).2 (.inr (if_pos h)), (s.syncCable_inp_asserted_iff .ndac).2 (.inr (if_pos h))⟩

/-! ## The turns of the agents, VIA by VIA -/

/-- `AgentEffect v k w`: what one turn of an agent can make of `via[k]`, from `v` to `w`. A Sync writes `via[0]` alone, and
there is no delivery but the Sync's. -/
inductive AgentEffect (v : Via) : ViaId → Via → Prop
  | stands (k : ViaId) : AgentEffect v k v
  | read (k : ViaId) (r : Reg) : AgentEffect v k (v.afterRead r)
  | write (k : ViaId) (d : Byte) (r : Reg) : AgentEffect v k (v.write d r)
  | tick (k : ViaId) : AgentEffect v k v.tick
  | sync (m : BusState) : AgentEffect v .via0 (driveWrite v m)

/-- Replacing `via[j]` by an effect on it is an effect on each VIA. -/
theorem AgentEffect.setVia {s : State} {j : ViaId} {w : Via} (h : AgentEffect (s.via j) j w) (k : ViaId) :
    AgentEffect (s.via k) k ((s.setVia w j).via k) := by
  cases j <;> cases k
  case via0.via0 | via1.via1 => exact h
  case via0.via1 | via1.via0 => exact .stands _

/-- An access of the CPU inside a window is one register's, and outside both it is none (R60). -/
theorem agentEffect_cpuEvent (s : State) (e : CpuEvent) (k : ViaId) :
    AgentEffect (s.via k) k ((s.cpuEvent e).via k) := by
  cases e with
  | read a =>
    simp only [State.cpuEvent, State.memRead]
    split
    case h_1 j r _ =>
      rw [State.cpuRead, State.returning_via]
      exact AgentEffect.setVia (.read j r) k
    case h_2 => exact .stands k
  | write a d =>
    simp only [State.cpuEvent, State.memWrite]
    split
    case h_1 j r _ => exact AgentEffect.setVia (.write j d r) k
    case h_2 => exact .stands k
  | done | fatal =>
    rw [State.cpuEvent, State.setLoop_via]
    exact .stands k

/-- A turn of the drive loop, by its phase (R240). -/
theorem agentEffect_driveStep (s : State) (e : CpuEvent) (k : ViaId) :
    AgentEffect (s.via k) k ((s.driveStep e).via k) := by
  unfold State.driveStep
  split
  case h_1 => exact agentEffect_cpuEvent s e k
  case h_2 => cases k <;> exact .tick _
  case h_3 =>
    cases k
    case via0 => exact .sync _
    case via1 => exact .stands _
  case h_4 =>
    rw [State.setLoop_via, State.offerInterrupt_via]
    exact .stands k
  case h_5 => exact .stands k

@[simp] theorem State.fail_via (s : State) (tag : PollTag) (k : ViaId) : (s.fail tag).via k = s.via k := by
  cases h : s.bm.cleansUp
  · rw [State.fail_of_not_cleansUp s tag h]
    cases k <;> rfl
  · rw [State.fail_of_cleansUp s tag h]
    cases k <;> rfl

@[simp] theorem State.poll_via (s : State) (tag : PollTag) (c : Bool) (k : ViaId) : (s.poll tag c).via k = s.via k := by
  obtain h | h | ⟨-, h⟩ | h := s.poll_cases tag c <;> simp [h]

@[simp] theorem State.commandStep11_via (s : State) (k : ViaId) : s.commandStep11.via k = s.via k := by
  unfold State.commandStep11
  split <;> simp

/-- No turn of the bus master touches a VIA. -/
@[simp] theorem State.hostStep_via (s : State) (k : ViaId) : s.hostStep.via k = s.via k := by
  generalize ht : s.hostStep = t
  cases hostEffect_hostStep ht with
  | poll tag c => exact s.poll_via tag c k
  | commandStep11 => exact s.commandStep11_via k
  | stutter | drive | latch | commandStep12 | readStep9 => cases k <;> rfl

/-- A turn of either agent. -/
theorem agentEffect_turn {s t : State} {i : Input} (hi : (∃ e, i = .drive e) ∨ i = .host) (h : turn i s = .next t)
    (k : ViaId) : AgentEffect (s.via k) k (t.via k) := by
  obtain ⟨e, rfl⟩ | rfl := hi
  · cases h
    exact agentEffect_driveStep s e k
  · cases h
    exact (s.hostStep_via k).symm ▸ .stands k

/-! ## The unconnected lines (R199) -/

/-- The control lines that no operation of the block delivers to: all but CA1 and CA2 of `via[0]`. -/
def Unconnected (k : ViaId) (l : CtrlLine) : Prop := k = .via0 → l ≠ .ca1 ∧ l ≠ .ca2

/-- From `v` to `w` the line keeps its level, and its flag is not raised. -/
def Via.QuietOn (v w : Via) (l : CtrlLine) : Prop :=
  w.level l = v.level l ∧ (bit w.ifr (flagBit l) = true → bit v.ifr (flagBit l) = true)

/-- The flag of a control line is one of the seven stored ones (R30). -/
theorem flagBit_lt (l : CtrlLine) : flagBit l < 7 := by cases l <;> decide

theorem flagBit_injective : Function.Injective flagBit := by
  intro l j
  cases l <;> cases j <;> simp [flagBit]

/-- Timer 1 shares its flag with no control line (R30). -/
theorem flagBit_ne_t1Flag (l : CtrlLine) : flagBit l ≠ t1Flag := by cases l <;> decide

theorem Via.bit_of_bit_lower {v : Via} {m n : Nat} (hn : n < 7) (h : bit (v.lower m).ifr n = true) :
    bit v.ifr n = true := by
  rw [Via.flagsLowered_lower v m n hn, Bool.and_eq_true] at h
  exact h.1

theorem Via.bit_of_bit_clearPortFlags {v : Via} {p : Port} {n : Nat} (hn : n < 7)
    (h : bit (v.clearPortFlags p).ifr n = true) : bit v.ifr n = true := by
  rw [Via.clearPortFlags_flags v p n hn, Bool.and_eq_true] at h
  exact h.1

/-- No read raises a flag. -/
theorem Via.bit_of_bit_afterRead {v : Via} {r : Reg} {n : Nat} (hn : n < 7) (h : bit (v.afterRead r).ifr n = true) :
    bit v.ifr n = true := by
  cases r
  case pb | pa => exact Via.bit_of_bit_clearPortFlags hn h
  case t1lo => exact Via.bit_of_bit_lower hn h
  all_goals exact h

/-- No write raises a flag. -/
theorem Via.bit_of_bit_write {v : Via} {d : Byte} {r : Reg} {n : Nat} (hn : n < 7) (h : bit (v.write d r).ifr n = true) :
    bit v.ifr n = true := by
  cases r
  case pb | pa =>
    rw [Via.write, Via.writePort_flag_bit _ _ _ hn] at h
    exact Via.bit_of_bit_clearPortFlags hn h
  case t1hi | t1lhi => exact Via.bit_of_bit_lower (v := v) hn h
  case ifr =>
    rw [Via.write, bit_clearFlags _ _ hn, Bool.and_eq_true] at h
    exact h.1
  all_goals exact h

/-- A Sync raises no flag but those of CA1 and CA2. -/
theorem driveWrite_flag_stands (v : Via) (m : BusState) {l : CtrlLine} (h1 : l ≠ .ca1) (h2 : l ≠ .ca2) :
    bit (driveWrite v m).ifr (flagBit l) = bit v.ifr (flagBit l) := by
  have hne1 : (flagBit l == flagBit .ca1) = false := beq_false_of_ne (flagBit_injective.ne h1)
  have hne2 : (flagBit l == flagBit .ca2) = false := beq_false_of_ne (flagBit_injective.ne h2)
  simp [driveWrite_flag_bit v m (flagBit_lt l), hne1, hne2]

/-- No turn of an agent touches an unconnected line: a read and a write raise no flag, a tick raises Timer 1's, and a Sync
those of CA1 and CA2 of `via[0]`. -/
theorem AgentEffect.quietOn {v w : Via} {k : ViaId} {l : CtrlLine} (h : AgentEffect v k w) (hl : Unconnected k l) :
    v.QuietOn w l := by
  have hlt := flagBit_lt l
  cases h with
  | stands => exact ⟨rfl, id⟩
  | read _ r => exact ⟨Via.afterRead_level v r l, Via.bit_of_bit_afterRead hlt⟩
  | write _ d r => exact ⟨Via.write_level v d r l, Via.bit_of_bit_write hlt⟩
  | tick =>
    refine ⟨Via.tick_level v l, fun hb => ?_⟩
    have hne : flagBit l ≠ 6 := flagBit_ne_t1Flag l
    simpa [Via.bit_tick_ifr v hlt, hne] using hb
  | sync m =>
    obtain ⟨h1, h2⟩ := hl rfl
    exact ⟨driveWrite_level v m l h1 h2, fun hb => driveWrite_flag_stands v m h1 h2 ▸ hb⟩

end Sys2Proof.Machine
end

section
/-! The obligations of the family on the drive connector. -/

namespace Sys2Proof.Machine

/-- Settles O35: the first Sync finds the gate false and delivers ATN to CA1, so that the second finds it true. -/
theorem gateAnswersOneSyncLate : Obligations.GateAnswersOneSyncLate := by
  intro s hatn hnrfd hndac hca1 hatna hpb1 hpb2
  have hgate : s.via0.gate = false := by simp [← Bool.not_eq_true, Via.gate_iff, hatna, hca1]
  have hnrfd1 := (s.syncCable_inp_negated_iff .nrfd).2 ⟨hnrfd, Via.gated_ne_asserted hgate hpb1⟩
  have hndac1 := (s.syncCable_inp_negated_iff .ndac).2 ⟨hndac, Via.gated_ne_asserted hgate hpb2⟩
  have hatn1 : s.syncCable.host.inp.atn = .asserted := (s.syncCable_inp_asserted_iff .atn).2 (.inl hatn)
  have hgate1 : s.syncCable.via0.gate = true := by
    rw [State.syncCable_gate_iff, hatna, hatn1]
    decide
  obtain ⟨hnrfd2, hndac2⟩ := State.syncCable_inp_of_gate hgate1
  exact ⟨_, _, exec_sync s, exec_sync _, hnrfd1, hndac1, hnrfd2, hndac2⟩

/-- Settles O52: every effect of a turn leaves each unconnected line quiet. -/
theorem unconnectedLinesNeverFire : Obligations.UnconnectedLinesNeverFire := by
  intro s t i hi h
  have hquiet : ∀ k l, Unconnected k l → (s.via k).QuietOn (t.via k) l :=
    fun k l hl => (agentEffect_turn hi h k).quietOn hl
  obtain ⟨hca1, fca1⟩ := hquiet .via1 .ca1 nofun
  obtain ⟨hca2, fca2⟩ := hquiet .via1 .ca2 nofun
  obtain ⟨hcb1, fcb1⟩ := hquiet .via1 .cb1 nofun
  obtain ⟨hcb2, fcb2⟩ := hquiet .via1 .cb2 nofun
  obtain ⟨hcb1', fcb1'⟩ := hquiet .via0 .cb1 fun _ => ⟨nofun, nofun⟩
  obtain ⟨hcb2', fcb2'⟩ := hquiet .via0 .cb2 fun _ => ⟨nofun, nofun⟩
  simp only [List.forall_mem_cons]
  exact ⟨hca1, hca2, hcb1, hcb2, hcb1', hcb2', ⟨fca2, fca1, fcb2, fcb1, nofun⟩, ⟨fcb2', fcb1', nofun⟩⟩

end Sys2Proof.Machine
end

section
/-! The bus master's turn, step by step (R219, R224, R226), the samples of a poll (R216, R218), and turns in a row. -/

namespace Sys2Proof.Machine

/-! ## Which step is next -/

theorem State.hostStep_of_inCommand {s : State} (h : s.bm.inCommand = true) : s.hostStep = s.commandStep := by
  rw [State.hostStep_cases, if_pos h]

theorem State.hostStep_of_inRead {s : State} (h : s.bm.inRead = true) : s.hostStep = s.readStep := by
  rw [State.hostStep_cases, if_neg (by simp [BusMaster.not_inCommand_of_inRead h]), if_pos h]

theorem BusMaster.inCommand_of_cmd {b : BusMaster} (h : b.seq = .cmd) : b.inCommand = true := by
  simp [BusMaster.inCommand, h]

theorem BusMaster.inRead_of_readByte {b : BusMaster} (h : b.seq = .readByte) : b.inRead = true := by
  simp [BusMaster.inRead, h]

theorem BusMaster.inCommand_of_input {b : BusMaster} (h : b.seq = .input) (hp : b.phase ≠ .read) : b.inCommand = true := by
  simp [BusMaster.inCommand, h, hp]

theorem BusMaster.inRead_of_input {b : BusMaster} (h : b.seq = .input) (hp : b.phase = .read) : b.inRead = true := by
  simp [BusMaster.inRead, h, hp]

theorem BusMaster.inCommand_of_idle {b : BusMaster} (h : b.seq = .idle) : b.inCommand = false :=
  (b.seq_eq_idle_iff.1 h).1

/-! ## The numbered steps that are polls -/

section
variable {b : BusMaster}

theorem BusMaster.pollTag_command_one (hc : b.inCommand = true) (h : b.step = 1) : b.pollTag = none := by
  simp [BusMaster.pollTag, hc, h]

theorem BusMaster.pollTag_command_three (hc : b.inCommand = true) (h : b.step = 3) : b.pollTag = some .ack := by
  simp [BusMaster.pollTag, hc, h]

theorem BusMaster.pollTag_command_five (hc : b.inCommand = true) (h : b.step = 5) : b.pollTag = some .ready := by
  simp [BusMaster.pollTag, hc, h]

theorem BusMaster.pollTag_command_seven (hc : b.inCommand = true) (h : b.step = 7) : b.pollTag = some .busy := by
  simp [BusMaster.pollTag, hc, h]

theorem BusMaster.pollTag_command_eight (hc : b.inCommand = true) (h : b.step = 8) : b.pollTag = some .accepted := by
  simp [BusMaster.pollTag, hc, h]

theorem BusMaster.pollTag_command_ten (hc : b.inCommand = true) (h : b.step = 10) : b.pollTag = some .idle := by
  simp [BusMaster.pollTag, hc, h]

theorem BusMaster.pollTag_read_three (hr : b.inRead = true) (h : b.step = 3) : b.pollTag = some .dav := by
  simp [BusMaster.pollTag, BusMaster.not_inCommand_of_inRead hr, hr, h]

theorem BusMaster.pollTag_read_eight (hr : b.inRead = true) (h : b.step = 8) : b.pollTag = some .davRelease := by
  simp [BusMaster.pollTag, BusMaster.not_inCommand_of_inRead hr, hr, h]

end

/-! ## The numbered steps that are no polls -/

section
variable {s : State}

theorem State.commandStep_one (h : s.bm.step = 1) : s.commandStep = s.driveStepOut BusState.released := by
  simp [State.commandStep, h]

theorem State.commandStep_two (h : s.bm.step = 2) :
    s.commandStep = s.driveStepOut { s.host.out with atn := .asserted } := by
  simp [State.commandStep, h]

theorem State.commandStep_four (h : s.bm.step = 4) :
    s.commandStep = s.driveStepOut { s.host.out with dio := s.bm.prim ||| Config.talkMark } := by
  simp [State.commandStep, h]

theorem State.commandStep_six (h : s.bm.step = 6) :
    s.commandStep = s.driveStepOut { s.host.out with dav := .asserted } := by
  simp [State.commandStep, h]

theorem State.commandStep_nine (h : s.bm.step = 9) :
    s.commandStep = s.driveStepOut { s.host.out with dav := .negated, dio := Config.dioReleased } := by
  simp [State.commandStep, h]

theorem State.commandStep_eleven (h : s.bm.step = 11) : s.commandStep = s.commandStep11 := by
  simp [State.commandStep, h]

theorem State.commandStep_twelve (h : s.bm.step = 12) : s.commandStep = s.commandStep12 := by
  simp [State.commandStep, h]

theorem State.readStep_one (h : s.bm.step = 1) :
    s.readStep = s.driveStepOut { s.host.out with dav := .floating, nrfd := .asserted, ndac := .asserted } := by
  simp [State.readStep, h]

theorem State.readStep_two (h : s.bm.step = 2) : s.readStep = s.driveStepOut { s.host.out with nrfd := .negated } := by
  simp [State.readStep, h]

theorem State.readStep_four (h : s.bm.step = 4) :
    s.readStep = s.driveStepOut { s.host.out with nrfd := .asserted } := by
  simp [State.readStep, h]

theorem State.readStep_five (h : s.bm.step = 5) :
    s.readStep = (s.setBm { s.bm with byte := s.host.inp.dio }).advance := by
  simp [State.readStep, h]

theorem State.readStep_six (h : s.bm.step = 6) : s.readStep = s.substituteEoi.advance := by
  simp [State.readStep, h]

theorem State.readStep_seven (h : s.bm.step = 7) :
    s.readStep = s.driveStepOut { s.host.out with ndac := .negated } := by
  simp [State.readStep, h]

theorem State.readStep_nine (h : s.bm.step = 9) : s.readStep = s.readStep9 := by
  simp [State.readStep, h]

/-- With a secondary byte still to send, step 11 puts it on DIO and goes back to step 5 (R220). -/
theorem State.commandStep11_of_secondary (h : s.bm.round = .primary ∧ s.bm.sec ≠ Config.noSecondary) :
    s.commandStep11 = { s with
      host := { s.host with out := { s.host.out with dio := s.bm.sec ||| Config.secondMark } }
      bm := { s.bm with synced := false, round := .secondary, step := 5 } } :=
  if_pos h

theorem State.commandStep11_of_not_secondary (h : ¬(s.bm.round = .primary ∧ s.bm.sec ≠ Config.noSecondary)) :
    s.commandStep11 = s.advance :=
  if_neg h

end

/-! ## What follows a sequence's last step -/

theorem BusMaster.afterCommand_of_cmd {b : BusMaster} (h : b.seq = .cmd) : b.afterCommand = b.finish .ok := by
  simp [BusMaster.afterCommand, h]

theorem BusMaster.afterCommand_of_talk {b : BusMaster} (h : b.seq = .input) (hp : b.phase = .talk) :
    b.afterCommand = ({ b with phase := .read }).startRead := by
  simp [BusMaster.afterCommand, h, hp]

theorem BusMaster.afterCommand_of_untalk {b : BusMaster} (h : b.seq = .input) (hp : b.phase = .untalk) :
    b.afterCommand = b.finish (.okBytes b.bytes) := by
  simp [BusMaster.afterCommand, h, hp]

theorem BusMaster.afterRead_of_readByte {b : BusMaster} (h : b.seq = .readByte) :
    b.afterRead = b.finish (.okByte b.byte) := by
  simp [BusMaster.afterRead, h]

/-- The terminator, or the last byte there is room for, starts UNTALK. -/
theorem BusMaster.afterRead_of_last {b : BusMaster} (h : b.seq = .input)
    (hlast : b.byte = Config.terminator ∨ b.bytes.length + 1 = Config.maxInput) : b.afterRead =
      ({ b with bytes := b.bytes ++ [b.byte], phase := .untalk }).startCommand Config.untalkByte Config.noSecondary := by
  simp [BusMaster.afterRead, h, hlast]

/-- Any other byte starts the next read. -/
theorem BusMaster.afterRead_of_more {b : BusMaster} (h : b.seq = .input)
    (hmore : ¬(b.byte = Config.terminator ∨ b.bytes.length + 1 = Config.maxInput)) : b.afterRead =
      ({ b with bytes := b.bytes ++ [b.byte] }).startRead := by
  simp [BusMaster.afterRead, h, hmore]

/-- No command goes on after its step 12: the sequence ends, or byte reads follow. -/
theorem BusMaster.afterCommand_inCommand (b : BusMaster) : b.afterCommand.inCommand = false := by
  unfold BusMaster.afterCommand
  split
  case h_1 hs _ => simp [BusMaster.startRead, BusMaster.inCommand, hs]
  case h_2 | h_3 => rfl

/-- A command that follows a byte read is at its step 1. -/
theorem BusMaster.afterRead_step_of_inCommand {b : BusMaster} (h : b.afterRead.inCommand = true) :
    b.afterRead.step = 1 := by
  revert h
  unfold BusMaster.afterRead
  split
  case h_1 =>
    dsimp only
    split <;> exact fun _ => rfl
  case h_2 => exact nofun

/-! ## One sample of a poll (R216, R218) -/

section
variable {s : State} {tag : PollTag}

theorem State.hostStep_of_holds (hp : s.bm.pollTag = some tag) (hsync : s.bm.synced = true) (h : tag.Holds s.host.inp) :
    s.hostStep = { s with bm := { s.bm with retries := 0, step := s.bm.step + 1 } } := by
  obtain ⟨c, hc, he⟩ := State.hostStep_at_poll hp
  rw [he, hc.2 h, State.poll_of_holds s tag hsync]

/-- A failed sample counts, or ends the sequence. -/
theorem State.hostStep_of_fails (hp : s.bm.pollTag = some tag) (hsync : s.bm.synced = true)
    (h : ¬tag.Holds s.host.inp) : s.hostStep =
      if s.bm.retries + 1 = Config.pollRetries then (s.setBm { s.bm with retries := s.bm.retries + 1 }).fail tag
      else { s with bm := { s.bm with retries := s.bm.retries + 1 } } := by
  obtain ⟨c, hc, he⟩ := State.hostStep_at_poll hp
  rw [he, Bool.eq_false_iff.2 fun hc' => h (hc.1 hc'), State.poll_of_fails s tag hsync]

/-- The timeout of a command's poll: ATN is negated (R223). -/
theorem State.hostStep_of_timeout_inCommand (hp : s.bm.pollTag = some tag) (hsync : s.bm.synced = true)
    (h : ¬tag.Holds s.host.inp) (hn : s.bm.retries + 1 = Config.pollRetries) (hc : s.bm.inCommand = true) :
    s.hostStep = { s with
      host := { s.host with out := { s.host.out with atn := .negated } }
      bm := { s.bm with result := .timeout s.bm.seq tag s.host.inp, seq := .idle, step := 0, retries := 0,
                        synced := false } } := by
  rw [State.hostStep_of_fails hp hsync h, if_pos hn]
  exact State.fail_of_cleansUp _ tag ((BusMaster.cleansUp_eq_inCommand _).trans hc)

/-- The timeout of a byte read's poll leaves the lines alone (R224). -/
theorem State.hostStep_of_timeout_inRead (hp : s.bm.pollTag = some tag) (hsync : s.bm.synced = true)
    (h : ¬tag.Holds s.host.inp) (hn : s.bm.retries + 1 = Config.pollRetries) (hc : s.bm.inCommand = false) :
    s.hostStep = { s with bm := { s.bm with
      result := .timeout s.bm.seq tag s.host.inp, seq := .idle, step := 0, retries := 0 } } := by
  rw [State.hostStep_of_fails hp hsync h, if_pos hn]
  exact State.fail_of_not_cleansUp _ tag ((BusMaster.cleansUp_eq_inCommand _).trans hc)

/-- Samples in a row that fail below the limit only count. -/
theorem State.iterate_hostStep_of_fails (hp : s.bm.pollTag = some tag) (hsync : s.bm.synced = true)
    (h : ¬tag.Holds s.host.inp) {n : Nat} (hn : s.bm.retries + n < Config.pollRetries) :
    State.hostStep^[n] s = { s with bm := { s.bm with retries := s.bm.retries + n } } := by
  induction n with
  | zero => rfl
  | succ n ih =>
    rw [Function.iterate_succ_apply', ih (by omega)]
    exact (State.hostStep_of_fails (s := { s with bm := { s.bm with retries := s.bm.retries + n } }) hp hsync h).trans
      (if_neg (Nat.ne_of_lt hn))

end

/-! ## The turn at a numbered step -/

/-- A turn that writes the outgoing latch and goes on. -/
theorem turn_host_of_driveStepOut {s : State} {b : BusState} {n : Nat} (hn : s.bm.step = n)
    (h : s.hostStep = s.driveStepOut b) : turn .host s = .next { s with
      host := { s.host with out := b }, bm := { s.bm with synced := false, step := n + 1 } } := by
  subst hn
  rw [turn_host, h]
  rfl

/-- A turn that takes a sample whose condition holds. -/
theorem turn_host_of_holds {s : State} {tag : PollTag} {n : Nat} (hn : s.bm.step = n)
    (hp : s.bm.pollTag = some tag) (hsync : s.bm.synced = true) (h : tag.Holds s.host.inp) :
    turn .host s = .next { s with bm := { s.bm with retries := 0, step := n + 1 } } := by
  subst hn
  rw [turn_host, State.hostStep_of_holds hp hsync h]

/-- A command's step 12 (R219, R221), by what follows it. -/
theorem turn_host_of_command_end {s : State} {b : BusMaster} (hc : s.bm.inCommand = true) (h : s.bm.step = 12)
    (hb : ({ s.bm with synced := false } : BusMaster).afterCommand = b) : turn .host s = .next { s with
      host := { s.host with out := { s.host.out with atn := .negated, nrfd := .asserted, ndac := .asserted } }
      bm := b } := by
  subst hb
  rw [turn_host, State.hostStep_of_inCommand hc, State.commandStep_twelve h]
  rfl

/-- A byte read's step 9 (R224), by what follows it. -/
theorem turn_host_of_read_end {s : State} {b : BusMaster} (hr : s.bm.inRead = true) (h : s.bm.step = 9)
    (hb : ({ s.bm with synced := false } : BusMaster).afterRead = b) : turn .host s = .next { s with
      host := { s.host with out := { s.host.out with ndac := .asserted, nrfd := .asserted } }, bm := b } := by
  subst hb
  rw [turn_host, State.hostStep_of_inRead hr, State.readStep_nine h]
  rfl

/-! ## Turns of the bus master in a row -/

/-- The first of the queued turns is taken; no turn touches the queue. -/
theorem hostTurns_succ (n : Nat) (s : State) : hostTurns (n + 1) s = hostTurns n s.hostStep := by
  have hstep : step (s.withInputs (List.replicate (n + 1) .host ++ s.io.inputs)) =
      .next (s.hostStep.withInputs (List.replicate n .host ++ s.hostStep.io.inputs)) := by
    rw [step_of_inputs_cons (i := .host) (q := List.replicate n .host ++ s.io.inputs) rfl,
      State.withInputs_withInputs, State.hostStep_io]
    exact congrArg _ (State.hostStep_withInputs s _)
  simp only [hostTurns, Host.Core.run, show Sys2Proof.core.step = step from rfl, hstep]
  rfl

theorem hostTurns_eq_iterate (n : Nat) (s : State) : hostTurns n s = .next (State.hostStep^[n] s) := by
  induction n generalizing s with
  | zero => rfl
  | succ n ih => rw [hostTurns_succ, ih, Function.iterate_succ_apply]

end Sys2Proof.Machine
end

section
/-! What a turn of the bus master depends on (R229), and the inner steps of an input sequence (R226). -/

namespace Sys2Proof.Machine

/-! ## The bus master sees its own state alone (R229) -/

/-- `u` with the host connector and the bus master of `s`. -/
def State.withHostOf (u s : State) : State := { u with host := s.host, bm := s.bm }

@[simp] theorem State.withHostOf_bm (u s : State) : (u.withHostOf s).bm = s.bm := rfl

theorem State.withHostOf_of_eq {u s : State} (hb : s.bm = u.bm) (hh : s.host = u.host) : u.withHostOf s = u := by
  rw [State.withHostOf, hb, hh]

section
variable (u s : State)

theorem State.fail_withHostOf (tag : PollTag) : (u.withHostOf s).fail tag = u.withHostOf (s.fail tag) := by
  cases h : s.bm.cleansUp
  · rw [State.fail_of_not_cleansUp s tag h, State.fail_of_not_cleansUp (u.withHostOf s) tag h]
    rfl
  · rw [State.fail_of_cleansUp s tag h, State.fail_of_cleansUp (u.withHostOf s) tag h]
    rfl

theorem State.poll_withHostOf (tag : PollTag) (c : Bool) : (u.withHostOf s).poll tag c = u.withHostOf (s.poll tag c) := by
  cases h : s.bm.synced
  · rw [State.poll_of_not_synced s tag c h, State.poll_of_not_synced (u.withHostOf s) tag c h]
  · cases c
    · rw [State.poll_of_fails s tag h, State.poll_of_fails (u.withHostOf s) tag h, State.withHostOf_bm]
      split
      case isTrue => exact State.fail_withHostOf u (s.setBm { s.bm with retries := s.bm.retries + 1 }) tag
      case isFalse => rfl
    · rw [State.poll_of_holds s tag h, State.poll_of_holds (u.withHostOf s) tag h]
      rfl

theorem State.commandStep_withHostOf : (u.withHostOf s).commandStep = u.withHostOf s.commandStep := by
  unfold State.commandStep
  rw [State.withHostOf_bm]
  split
  case h_3 | h_5 | h_7 | h_8 | h_10 => exact State.poll_withHostOf u s _ _
  case h_11 =>
    unfold State.commandStep11
    rw [State.withHostOf_bm]
    split <;> rfl
  all_goals rfl

theorem State.readStep_withHostOf : (u.withHostOf s).readStep = u.withHostOf s.readStep := by
  unfold State.readStep
  rw [State.withHostOf_bm]
  split
  case h_3 | h_8 => exact State.poll_withHostOf u s _ _
  case h_6 =>
    rw [State.substituteEoi_eq, State.substituteEoi_eq]
    rfl
  all_goals rfl

/-- The turn is fixed by the host connector and the bus master, and writes nothing else. -/
theorem State.hostStep_withHostOf : (u.withHostOf s).hostStep = u.withHostOf s.hostStep := by
  rw [State.hostStep_cases, State.hostStep_cases, State.withHostOf_bm]
  split
  case isTrue => exact State.commandStep_withHostOf u s
  case isFalse =>
    split
    case isTrue => exact State.readStep_withHostOf u s
    case isFalse => rfl

end

/-- The turn of a machine that agrees with `s` on both, over what `s`'s turn gives them. -/
theorem State.hostStep_of_agree {u s : State} (hb : s.bm = u.bm) (hh : s.host = u.host) :
    u.hostStep = { u with bm := s.hostStep.bm, host := { u.host with out := s.hostStep.host.out } } := by
  have hhost : s.hostStep.host = ⟨s.hostStep.host.out, u.host.inp⟩ := by rw [← hh, ← s.hostStep_host_inp]
  have hturn : u.hostStep = u.withHostOf s.hostStep := by
    rw [← State.hostStep_withHostOf, State.withHostOf_of_eq hb hh]
  exact hturn.trans (congrArg (fun h => ({ u with bm := s.hostStep.bm, host := h } : State)) hhost)

/-! ## The inner steps of an input sequence (R226) -/

/-- The same state in the course of another sequence. -/
def State.withSeq (s : State) (q : Sequence) : State := { s with bm := { s.bm with seq := q } }

@[simp] theorem State.withSeq_bm (s : State) (q : Sequence) : (s.withSeq q).bm = { s.bm with seq := q } := rfl

section
variable {s : State} {q : Sequence}

/-- A poll's turn that does not end the sequence is the same in each. -/
theorem State.poll_withSeq {tag : PollTag} {c : Bool} (hq : q ≠ .idle) (h : ((s.withSeq q).poll tag c).bm.seq = q) :
    s.poll tag c = ((s.withSeq q).poll tag c).withSeq s.bm.seq := by
  revert h
  cases hsync : s.bm.synced
  · rw [State.poll_of_not_synced s tag c hsync, State.poll_of_not_synced (s.withSeq q) tag c hsync]
    exact fun _ => rfl
  · cases c
    · rw [State.poll_of_fails s tag hsync, State.poll_of_fails (s.withSeq q) tag hsync, State.withSeq_bm]
      split
      case isTrue => exact fun h => absurd h.symm hq
      case isFalse => exact fun _ => rfl
    · rw [State.poll_of_holds s tag hsync, State.poll_of_holds (s.withSeq q) tag hsync]
      exact fun _ => rfl

/-- Step 11 ends no sequence (R220). -/
theorem State.commandStep11_withSeq : s.commandStep11 = (s.withSeq q).commandStep11.withSeq s.bm.seq := by
  by_cases h : s.bm.round = .primary ∧ s.bm.sec ≠ Config.noSecondary
  · rw [State.commandStep11_of_secondary h, State.commandStep11_of_secondary (s := s.withSeq q) h]
    rfl
  · rw [State.commandStep11_of_not_secondary h, State.commandStep11_of_not_secondary (s := s.withSeq q) h]
    rfl

/-- A command's step that does not end it runs alike in an input sequence. -/
theorem State.commandStep_withSeq (h : (s.withSeq .cmd).commandStep.bm.seq = .cmd) :
    s.commandStep = (s.withSeq .cmd).commandStep.withSeq s.bm.seq := by
  revert h
  unfold State.commandStep
  dsimp only [State.withSeq_bm]
  split
  case h_3 | h_5 | h_7 | h_8 | h_10 => exact State.poll_withSeq nofun
  case h_11 => exact fun _ => State.commandStep11_withSeq
  case h_12 => exact nofun
  all_goals exact fun _ => rfl

/-- So does a byte read's. -/
theorem State.readStep_withSeq (h : (s.withSeq .readByte).readStep.bm.seq = .readByte) :
    s.readStep = (s.withSeq .readByte).readStep.withSeq s.bm.seq := by
  revert h
  unfold State.readStep
  dsimp only [State.withSeq_bm]
  split
  case h_3 | h_8 => exact State.poll_withSeq nofun
  case h_6 =>
    rw [State.substituteEoi_eq, State.substituteEoi_eq]
    exact fun _ => rfl
  case h_9 => exact nofun
  all_goals exact fun _ => rfl

end

end Sys2Proof.Machine
end

section
/-! A command leaves NRFD and NDAC to the drive (R222): what the two agents' turns keep while it runs, and which Sync filled the
latch that its polls sample. -/

namespace Sys2Proof.Machine

/-! ## What the drive loop's turns leave of the host's side -/

theorem State.cpuEvent_bm_host (s : State) (e : CpuEvent) : (s.cpuEvent e).bm = s.bm ∧ (s.cpuEvent e).host = s.host := by
  cases e with
  | read a =>
    simp only [State.cpuEvent, State.memRead]
    split <;> simp [State.cpuRead]
  | write a d =>
    simp only [State.cpuEvent, State.memWrite]
    split <;> simp [State.cpuWrite]
  | done | fatal => exact ⟨rfl, rfl⟩

theorem State.driveStep_of_sync {s : State} (h : s.loop = .sync) (e : CpuEvent) :
    s.driveStep e = s.syncCable.setLoop .irqCheck := by
  simp [State.driveStep, h]

/-- Only the Sync phase touches the host's side. -/
theorem State.driveStep_of_ne_sync {s : State} (h : s.loop ≠ .sync) (e : CpuEvent) :
    (s.driveStep e).bm = s.bm ∧ (s.driveStep e).host = s.host := by
  cases hl : s.loop with
  | cpuStep =>
    rw [State.driveStep_of_cpuStep hl]
    exact s.cpuEvent_bm_host e
  | sync => exact absurd hl h
  | tick | irqCheck | halted => simp [State.driveStep, hl]

/-- And that phase writes `bm.synced` and the incoming latch alone. -/
theorem State.driveStep_frame (s : State) (e : CpuEvent) :
    (s.driveStep e).bm = { s.bm with synced := (s.driveStep e).bm.synced } ∧ (s.driveStep e).host.out = s.host.out := by
  by_cases h : s.loop = .sync
  · rw [State.driveStep_of_sync h]
    exact ⟨rfl, rfl⟩
  · obtain ⟨hb, hh⟩ := State.driveStep_of_ne_sync h e
    rw [hb, hh]
    exact ⟨rfl, rfl⟩

/-! ## A command under way -/

/-- A command between its steps 2 and 12, with the host's NRFD and NDAC released (R222). -/
structure State.Released (s : State) : Prop where
  inCommand : s.bm.inCommand = true
  nrfd : s.host.out.nrfd = .floating
  ndac : s.host.out.ndac = .floating
  two_le : 2 ≤ s.bm.step
  le_twelve : s.bm.step ≤ 12

/-- `t` is in the same command as `s`, still with the lines released. -/
structure State.KeepsReleased (s t : State) : Prop where
  seq : t.bm.seq = s.bm.seq
  phase : t.bm.phase = s.bm.phase
  released : t.Released

theorem BusMaster.inCommand_congr {b c : BusMaster} (hs : c.seq = b.seq) (hp : c.phase = b.phase) :
    c.inCommand = b.inCommand := by
  rw [BusMaster.inCommand, BusMaster.inCommand, hs, hp]

/-- The state with another control state of the same command. -/
theorem State.Released.setBm {s : State} (h : s.Released) {b : BusMaster} (hs : b.seq = s.bm.seq)
    (hp : b.phase = s.bm.phase) (h2 : 2 ≤ b.step) (h12 : b.step ≤ 12) : s.KeepsReleased (s.setBm b) :=
  ⟨hs, hp, (BusMaster.inCommand_congr hs hp).trans h.inCommand, h.nrfd, h.ndac, h2, h12⟩

/-- A write of the outgoing latch that leaves both lines, and the next step. -/
theorem State.Released.driveStepOut {s : State} (h : s.Released) {o : BusState} (hn : o.nrfd = s.host.out.nrfd)
    (hd : o.ndac = s.host.out.ndac) (h12 : s.bm.step < 12) : s.KeepsReleased (s.driveStepOut o) :=
  ⟨rfl, rfl, h.inCommand, hn.trans h.nrfd, hd.trans h.ndac, Nat.le_succ_of_le h.two_le, h12⟩

@[simp] theorem State.fail_seq (s : State) (tag : PollTag) : (s.fail tag).bm.seq = .idle := rfl

/-- A poll goes on, waits, or ends the sequence. -/
theorem State.Released.poll {s : State} (h : s.Released) (tag : PollTag) (c : Bool) (h12 : s.bm.step < 12) :
    (s.poll tag c).bm.inCommand = false ∨ s.KeepsReleased (s.poll tag c) := by
  obtain he | he | ⟨-, he⟩ | he := s.poll_cases tag c <;> rw [he]
  · exact .inr ⟨rfl, rfl, h⟩
  · exact .inr (h.setBm rfl rfl (Nat.le_succ_of_le h.two_le) h12)
  · exact .inr (h.setBm rfl rfl h.two_le h.le_twelve)
  · exact .inl (BusMaster.inCommand_of_idle (State.fail_seq _ tag))

theorem State.Released.commandStep11 {s : State} (h : s.Released) (hs : s.bm.step = 11) :
    s.KeepsReleased s.commandStep11 := by
  by_cases hsec : s.bm.round = .primary ∧ s.bm.sec ≠ Config.noSecondary
  · rw [State.commandStep11_of_secondary hsec]
    exact ⟨rfl, rfl, h.inCommand, h.nrfd, h.ndac, by simp, by simp⟩
  · rw [State.commandStep11_of_not_secondary hsec]
    exact h.setBm rfl rfl (Nat.le_succ_of_le h.two_le) (by simp [hs])

/-- The bus master's turn keeps the lines released, or ends the command. -/
theorem State.Released.hostStep {s : State} (h : s.Released) :
    s.hostStep.bm.inCommand = false ∨ s.KeepsReleased s.hostStep := by
  have h2 := h.two_le
  have h12 := h.le_twelve
  rw [State.hostStep_of_inCommand h.inCommand]
  unfold State.commandStep
  split
  case h_1 => omega
  case h_2 | h_4 | h_6 | h_9 => exact .inr (h.driveStepOut rfl rfl (by omega))
  case h_3 | h_5 | h_7 | h_8 | h_10 => exact h.poll _ _ (by omega)
  case h_11 hs => exact .inr (h.commandStep11 hs)
  case h_12 => exact .inl (BusMaster.afterCommand_inCommand _)
  case h_13 =>
    simp only [imp_false] at *
    omega

/-- Step 1 releases the lines, and no Sync has carried that yet. -/
theorem State.released_after_step_one {s : State} (hc : s.bm.inCommand = true) (hs : s.bm.step = 1) :
    s.hostStep.Released ∧ s.hostStep.bm.synced = false := by
  rw [State.hostStep_of_inCommand hc, State.commandStep_one hs]
  exact ⟨⟨hc, rfl, rfl, by simp [hs], by simp [hs]⟩, rfl⟩

/-- A turn of the bus master enters a command at its step 1 alone: UNTALK, after the last byte read. -/
theorem State.hostStep_enters_command {s : State} (hc : s.bm.inCommand = false) (h : s.hostStep.bm.inCommand = true) :
    s.hostStep.bm.step = 1 := by
  revert h
  generalize ht : s.hostStep = t
  cases hostEffect_hostStep ht with
  | poll tag c =>
    obtain he | he | ⟨-, he⟩ | he := s.poll_cases tag c <;> rw [he]
    · simp [hc]
    · exact fun (h : s.bm.inCommand = true) => by simp [hc] at h
    · exact fun (h : s.bm.inCommand = true) => by simp [hc] at h
    · exact fun h => by simp [BusMaster.inCommand_of_idle (State.fail_seq _ tag)] at h
  | commandStep11 hc' | commandStep12 hc' => simp [hc] at hc'
  | readStep9 => exact BusMaster.afterRead_step_of_inCommand
  | stutter | drive | latch => exact fun (h : s.bm.inCommand = true) => by simp [hc] at h

theorem BusMaster.afterCommand_synced (b : BusMaster) : b.afterCommand.synced = b.synced := by
  unfold BusMaster.afterCommand
  split <;> rfl

theorem BusMaster.afterRead_synced (b : BusMaster) : b.afterRead.synced = b.synced := by
  unfold BusMaster.afterRead
  split
  case h_1 =>
    dsimp only
    split <;> rfl
  case h_2 => rfl

theorem State.synced_of_fail {s : State} (tag : PollTag) (h : (s.fail tag).bm.synced = true) : s.bm.synced = true := by
  cases hc : s.bm.cleansUp
  · rwa [State.fail_of_not_cleansUp s tag hc] at h
  · rw [State.fail_of_cleansUp s tag hc] at h
    cases h

/-- No turn of the bus master sets `bm.synced`. -/
theorem State.synced_of_hostStep {s : State} (h : s.hostStep.bm.synced = true) : s.bm.synced = true := by
  revert h
  generalize ht : s.hostStep = t
  cases hostEffect_hostStep ht with
  | poll tag c =>
    obtain he | he | ⟨-, he⟩ | he := s.poll_cases tag c <;> rw [he]
    · exact id
    · exact id
    · exact id
    · exact State.synced_of_fail tag
  | commandStep11 =>
    by_cases hsec : s.bm.round = .primary ∧ s.bm.sec ≠ Config.noSecondary
    · rw [State.commandStep11_of_secondary hsec]
      exact nofun
    · rw [State.commandStep11_of_not_secondary hsec]
      exact id
  | drive => exact nofun
  | stutter | latch => exact id
  | commandStep12 => exact fun h => nomatch (BusMaster.afterCommand_synced _).symm.trans h
  | readStep9 => exact fun h => nomatch (BusMaster.afterRead_synced _).symm.trans h

/-! ## The Sync behind a sample -/

/-- A turn in the run from `s` was a Sync, taken during a command with both lines released, and left `latch` in the incoming
latch. -/
def SyncedWhileReleased (s : State) (turns : List Input) (latch : BusState) : Prop :=
  ∃ (before after : List Input) (e : CpuEvent) (u : State), turns = before ++ .drive e :: after ∧
    runTurns before s = .next u ∧ u.loop = .sync ∧ u.Released ∧ u.syncCable.host.inp = latch

/-- What every run of the agents' turns from a command's first step keeps: a command is at its step 1, or it has both lines
released and, once a sample may be taken, the latch of a Sync that found them so. -/
def SamplesTheDrive (s : State) (turns : List Input) (t : State) : Prop :=
  t.bm.inCommand = true → t.bm.step = 1 ∨
    (t.Released ∧ (t.bm.synced = true → SyncedWhileReleased s turns t.host.inp))

theorem SyncedWhileReleased.snoc {s : State} {turns : List Input} {latch : BusState}
    (h : SyncedWhileReleased s turns latch) (i : Input) : SyncedWhileReleased s (turns ++ [i]) latch := by
  obtain ⟨before, after, e, u, rfl, hu⟩ := h
  exact ⟨before, after ++ [i], e, u, by simp, hu⟩

section
variable {s t : State} {turns : List Input}

theorem SamplesTheDrive.host (h : SamplesTheDrive s turns t) : SamplesTheDrive s (turns ++ [.host]) t.hostStep := by
  intro hc'
  cases hc : t.bm.inCommand
  case false => exact .inl (State.hostStep_enters_command hc hc')
  case true =>
    refine .inr ?_
    obtain hone | ⟨hrel, hlatch⟩ := h hc
    · obtain ⟨hrel, hsync⟩ := State.released_after_step_one hc hone
      exact ⟨hrel, fun hsync' => by simp [hsync] at hsync'⟩
    · obtain hend | hkeeps := hrel.hostStep
      · simp [hend] at hc'
      · refine ⟨hkeeps.released, fun hsync => ?_⟩
        rw [State.hostStep_host_inp]
        exact (hlatch (State.synced_of_hostStep hsync)).snoc .host

theorem SamplesTheDrive.drive (h : SamplesTheDrive s turns t) (hrun : runTurns turns s = .next t) (e : CpuEvent) :
    SamplesTheDrive s (turns ++ [.drive e]) (t.driveStep e) := by
  by_cases hl : t.loop = .sync
  · rw [State.driveStep_of_sync hl]
    intro hc
    obtain hone | ⟨hrel, -⟩ := h hc
    · exact .inl hone
    · exact .inr ⟨⟨hc, hrel.nrfd, hrel.ndac, hrel.two_le, hrel.le_twelve⟩,
        fun _ => ⟨turns, [], e, t, rfl, hrun, hl, hrel, rfl⟩⟩
  · obtain ⟨hb, hh⟩ := State.driveStep_of_ne_sync hl e
    intro hc
    rw [hb] at hc
    obtain hone | ⟨hrel, hlatch⟩ := h hc
    · exact .inl (hb ▸ hone)
    · refine .inr ⟨⟨hb ▸ hc, hh ▸ hrel.nrfd, hh ▸ hrel.ndac, hb ▸ hrel.two_le, hb ▸ hrel.le_twelve⟩, fun hsync => ?_⟩
      rw [hh]
      exact (hlatch (hb ▸ hsync)).snoc _

/-- Every run of the agents' turns from a command's first step. -/
theorem samplesTheDrive_of_run (hs : s.bm.step = 1) (hturns : ∀ i ∈ turns, i.IsAgentTurn)
    (hrun : runTurns turns s = .next t) : SamplesTheDrive s turns t := by
  induction turns using List.reverseRecOn generalizing t with
  | nil =>
    cases hrun
    exact fun _ => .inl hs
  | append_singleton turns i ih =>
    obtain ⟨u, hu, hi⟩ := runTurns_append turns [i] s t hrun
    have hinv := ih (fun j hj => hturns j (List.mem_append_left _ hj)) hu
    obtain rfl | ⟨e, rfl⟩ := hturns i (List.mem_append_right _ (List.mem_singleton_self i))
    · cases hi
      exact hinv.host
    · cases hi
      exact hinv.drive hu e

end

/-- The levels that a Sync hands a host with both lines released (R222). -/
theorem State.syncCable_inp_handshake {s : State} (hn : s.host.out.nrfd = .floating) (hd : s.host.out.ndac = .floating) :
    s.syncCable.host.inp.nrfd = mergeSignal .floating (driveRead s.via0).nrfd ∧
    s.syncCable.host.inp.ndac = mergeSignal .floating (driveRead s.via0).ndac :=
  ⟨hn ▸ s.syncCable_inp_line .nrfd, hd ▸ s.syncCable_inp_line .ndac⟩

end Sys2Proof.Machine
end

section
/-! The host connector's words (R86), and the start of a sequence (R219, R224, R226, R228). -/

namespace Sys2Proof

/-- The selector of a host line (R86). -/
def lineCode : BusLine → BitVec 4
  | .dav => 0x0#4
  | .eoi => 0x1#4
  | .ndac => 0x2#4
  | .nrfd => 0x3#4
  | .srq => 0x4#4
  | .atn => 0x5#4
  | .ren => 0x6#4
  | .ifc => 0x7#4

/-- `HSET` of a line. -/
def hsetLine (sig : Signal) : BusLine → Instr
  | .dav => .hsetDav sig
  | .eoi => .hsetEoi sig
  | .ndac => .hsetNdac sig
  | .nrfd => .hsetNrfd sig
  | .srq => .hsetSrq sig
  | .atn => .hsetAtn sig
  | .ren => .hsetRen sig
  | .ifc => .hsetIfc sig

theorem decodeOne_hsetLine (k : ViaId) (sig : Signal) (l : BusLine) :
    decodeOne k (transactionWord 0xB#4 (lineCode l) (signalCode sig)) = .ok (hsetLine sig l) := by
  cases l <;> cases sig <;> rfl

/-- The word of `HSET`: the signal's code is added to the word of the line. -/
theorem decode_hsetLine (k : ViaId) (sig : Signal) (l : BusLine) (rest : List Word) :
    decode k ((transactionWord 0xB#4 (lineCode l) 0x00#8 + (signalCode sig).setWidth 16) :: rest) =
      .ok (hsetLine sig l, rest) :=
  decode_dataByte k 0xB#4 (lineCode l) (by decide) (by decide) (decodeOne_hsetLine k sig l) rest

theorem decode_hdio (k : ViaId) (b : Byte) (rest : List Word) :
    decode k ((0xB800#16 + b.setWidth 16) :: rest) = .ok (.hdio b, rest) :=
  decode_dataByte k 0xB#4 0x8#4 (by decide) (by decide) (decodeOne_hdio k b) rest

theorem decode_hreset (k : ViaId) (rest : List Word) : decode k (0xB900#16 :: rest) = .ok (.hreset, rest) :=
  decode_of_decodeOne k rest (K := 0xB#4) (S := 0x9#4) (D := 0x00#8) (by decide) (by decide) rfl

end Sys2Proof

namespace Sys2Proof.Machine

theorem exec_hsetLine (sig : Signal) (l : BusLine) (s : State) :
    exec (hsetLine sig l) s = .next (s.hostSet sig l) := by
  cases l <;> rfl

theorem BusState.released_line (l : BusLine) : BusState.released.line l = .floating := by cases l <;> rfl

/-- The row of a line: its word, its transaction and the outgoing record it leaves. -/
def hsetRow (sig : Signal) (o : BusState) (l : BusLine) : Word × Instr × BusState :=
  (transactionWord 0xB#4 (lineCode l) 0x00#8, hsetLine sig l, o.setLine sig l)

theorem State.startSequence_of_idle {s : State} (h : s.bm.seq = .idle) (b : BusMaster) :
    s.startSequence b = .next (s.setBm b) :=
  if_pos h

theorem State.startSequence_of_running {s : State} (h : s.bm.seq ≠ .idle) (b : BusMaster) :
    s.startSequence b = .refused .sequenceRunning :=
  if_neg h

end Sys2Proof.Machine
end

section
/-! The obligations of the family on the host connector and the bus master. -/

namespace Sys2Proof.Machine

/-- Settles O37: the eight lines by one row each, and the two other writes. -/
theorem hostConnectorWrites : Obligations.HostConnectorWrites := by
  refine fun s b => ⟨fun c sig hc => ?hset, exec_hdio b s, fun k => decode_hdio k b,
    ⟨_, exec_hreset s, BusState.released_line, rfl⟩, decode_hreset⟩
  case hset =>
    obtain rfl : c = (signalCode sig).setWidth 16 := by
      simp only [List.mem_cons, Prod.mk.injEq, List.not_mem_nil, or_false] at hc
      obtain ⟨rfl, rfl⟩ | ⟨rfl, rfl⟩ | ⟨rfl, rfl⟩ := hc <;> rfl
    have hrow : ∀ row ∈ [BusLine.dav, .eoi, .ndac, .nrfd, .srq, .atn, .ren, .ifc].map (hsetRow sig s.host.out),
        exec row.2.1 s = .next (s.writeOut row.2.2) ∧
        ∀ k rest, decode k ((row.1 + (signalCode sig).setWidth 16) :: rest) = .ok (row.2.1, rest) :=
      List.forall_mem_map.2 fun l _ => ⟨exec_hsetLine sig l s, fun k rest => decode_hsetLine k sig l rest⟩
    exact hrow

/-- Settles O39, from what `startSequence` answers. -/
theorem sequencesStartOnlyWhenIdle : Obligations.SequencesStartOnlyWhenIdle := by
  refine fun s p sec => ⟨fun h => ?idle, fun h => ?running⟩
  case idle =>
    exact ⟨(exec_cmd p sec s).trans (State.startSequence_of_idle h _),
      (exec_readbyte s).trans (State.startSequence_of_idle h _),
      (exec_input p sec s).trans (State.startSequence_of_idle h _)⟩
  case running =>
    simp only [List.forall_mem_cons]
    exact ⟨(exec_cmd p sec s).trans (State.startSequence_of_running h _),
      (exec_readbyte s).trans (State.startSequence_of_running h _),
      (exec_input p sec s).trans (State.startSequence_of_running h _), nofun⟩

/-- Settles O41: a sample succeeds, counts, or is the last one, which ends the sequence as its kind says. -/
theorem pollSample : Obligations.PollSample := by
  refine fun s tag hp hsync => ⟨fun h => ?holds, fun h hn => ?counts, fun h hn hc => ?command, fun h hn hc => ?read⟩
  case holds => exact turn_host_of_holds rfl hp hsync h
  case counts => exact congrArg Host.Outcome.next ((State.hostStep_of_fails hp hsync h).trans (if_neg hn))
  case command => rw [turn_host, State.hostStep_of_timeout_inCommand hp hsync h hn hc]
  case read => rw [turn_host, State.hostStep_of_timeout_inRead hp hsync h hn hc]

/-- Settles O42: 499 failed samples only count, and the 500th is the last one there is a retry for. -/
theorem pollTimesOutAfterItsRetries : Obligations.PollTimesOutAfterItsRetries := by
  intro s tag n hp hsync hretries h
  have hcount : ∀ m, m < 500 → State.hostStep^[m] s = { s with bm := { s.bm with retries := m } } := fun m hm => by
    have hm' : s.bm.retries + m < Config.pollRetries := by rwa [hretries, Nat.zero_add]
    simpa only [hretries, Nat.zero_add] using State.iterate_hostStep_of_fails hp hsync h hm'
  have hlast : State.hostStep^[500] s = State.hostStep { s with bm := { s.bm with retries := 499 } } := by
    rw [Function.iterate_succ_apply', hcount 499 (by decide)]
  rw [hostTurns_eq_iterate]
  refine ⟨fun hn => congrArg _ (hcount n hn), fun hn hc => ?_, fun hn hc => ?_⟩ <;> rw [hn, hlast]
  · exact congrArg _ (State.hostStep_of_timeout_inCommand (s := { s with bm := { s.bm with retries := 499 } })
      hp hsync h rfl hc)
  · exact congrArg _ (State.hostStep_of_timeout_inRead (s := { s with bm := { s.bm with retries := 499 } })
      hp hsync h rfl hc)

/-- Settles O46: either turn is the one machine's turn, put into the other's state. -/
theorem hostTurnSeesOnlyItsOwnState : Obligations.HostTurnSeesOnlyItsOwnState := fun s _ hb hh =>
  ⟨s.hostStep.bm, s.hostStep.host.out, congrArg Host.Outcome.next (State.hostStep_of_agree rfl rfl),
    congrArg Host.Outcome.next (State.hostStep_of_agree hb hh)⟩

/-- Settles O43: the writes and the polls, each by its step's equation; step 11's two ways on; step 12's end. -/
theorem commandSteps : Obligations.CommandSteps := by
  intro s hseq
  have hc : s.bm.inCommand = true := BusMaster.inCommand_of_cmd hseq
  have hstep : s.hostStep = s.commandStep := State.hostStep_of_inCommand hc
  refine ⟨?one, ?two, ?three, ?four, ?five, ?six, ?seven, ?eight, ?nine, ?ten, ?secondary, ?done, ?twelve⟩
  case one =>
    exact fun h => ⟨_, BusState.released_line, rfl, turn_host_of_driveStepOut h (hstep.trans (State.commandStep_one h))⟩
  case two => exact fun h => turn_host_of_driveStepOut h (hstep.trans (State.commandStep_two h))
  case three => exact fun h => turn_host_of_holds h (BusMaster.pollTag_command_three hc h)
  case four => exact fun h => turn_host_of_driveStepOut h (hstep.trans (State.commandStep_four h))
  case five =>
    exact fun h hsync hndac hnrfd => turn_host_of_holds h (BusMaster.pollTag_command_five hc h) hsync ⟨hndac, hnrfd⟩
  case six => exact fun h => turn_host_of_driveStepOut h (hstep.trans (State.commandStep_six h))
  case seven => exact fun h => turn_host_of_holds h (BusMaster.pollTag_command_seven hc h)
  case eight => exact fun h => turn_host_of_holds h (BusMaster.pollTag_command_eight hc h)
  case nine => exact fun h => turn_host_of_driveStepOut h (hstep.trans (State.commandStep_nine h))
  case ten => exact fun h => turn_host_of_holds h (BusMaster.pollTag_command_ten hc h)
  case secondary =>
    intro h hround hsec
    rw [turn_host, hstep, State.commandStep_eleven h, State.commandStep11_of_secondary ⟨hround, hsec⟩]
    rfl
  case done =>
    intro h hdone
    have hnot : ¬(s.bm.round = .primary ∧ s.bm.sec ≠ Config.noSecondary) := fun ⟨hr, hs⟩ =>
      hdone.elim (fun hr' => nomatch hr.symm.trans hr') hs
    rw [turn_host, hstep, State.commandStep_eleven h, State.commandStep11_of_not_secondary hnot, State.advance, h]
    rfl
  case twelve => exact fun h => turn_host_of_command_end hc h (BusMaster.afterCommand_of_cmd hseq)

/-- Settles O44: the writes and the polls, each by its step's equation; the latched byte; step 9's end. -/
theorem byteReadSteps : Obligations.ByteReadSteps := by
  intro s hseq
  have hr : s.bm.inRead = true := BusMaster.inRead_of_readByte hseq
  have hstep : s.hostStep = s.readStep := State.hostStep_of_inRead hr
  refine ⟨?one, ?two, ?three, ?four, ?five, ?six, ?seven, ?eight, ?nine⟩
  case one => exact fun h => turn_host_of_driveStepOut h (hstep.trans (State.readStep_one h))
  case two => exact fun h => turn_host_of_driveStepOut h (hstep.trans (State.readStep_two h))
  case three => exact fun h => turn_host_of_holds h (BusMaster.pollTag_read_three hr h)
  case four => exact fun h => turn_host_of_driveStepOut h (hstep.trans (State.readStep_four h))
  case five =>
    intro h
    rw [turn_host, hstep, State.readStep_five h, State.advance, State.setBm_bm, h]
    rfl
  case six =>
    intro h
    rw [turn_host, hstep, State.readStep_six h, State.substituteEoi_eq, State.advance, State.setBm_bm, h]
    rfl
  case seven => exact fun h => turn_host_of_driveStepOut h (hstep.trans (State.readStep_seven h))
  case eight => exact fun h => turn_host_of_holds h (BusMaster.pollTag_read_eight hr h)
  case nine => exact fun h => turn_host_of_read_end hr h (BusMaster.afterRead_of_readByte hseq)

/-- Settles O45: a step that ends nothing is the one that runs alone, and each end is its last step's. -/
theorem inputSequenceSteps : Obligations.InputSequenceSteps := by
  intro s hseq
  refine ⟨?command, ?read, ?talkEnd, ?nextByte, ?lastByte, ?untalkEnd⟩
  case command =>
    intro t hp h ht
    have halone : (s.withSeq .cmd).hostStep = (s.withSeq .cmd).commandStep :=
      State.hostStep_of_inCommand (BusMaster.inCommand_of_cmd rfl)
    obtain rfl : (s.withSeq .cmd).commandStep = t := halone.symm.trans (Host.Outcome.next.inj h)
    rw [turn_host, State.hostStep_of_inCommand (BusMaster.inCommand_of_input hseq hp), State.commandStep_withSeq ht, hseq]
    rfl
  case read =>
    intro t hp h ht
    have halone : (s.withSeq .readByte).hostStep = (s.withSeq .readByte).readStep :=
      State.hostStep_of_inRead (BusMaster.inRead_of_readByte rfl)
    obtain rfl : (s.withSeq .readByte).readStep = t := halone.symm.trans (Host.Outcome.next.inj h)
    rw [turn_host, State.hostStep_of_inRead (BusMaster.inRead_of_input hseq hp), State.readStep_withSeq ht, hseq]
    rfl
  case talkEnd =>
    exact fun hp h => turn_host_of_command_end (BusMaster.inCommand_of_input hseq (by simp [hp])) h
      (BusMaster.afterCommand_of_talk hseq hp)
  case untalkEnd =>
    exact fun hp h => turn_host_of_command_end (BusMaster.inCommand_of_input hseq (by simp [hp])) h
      (BusMaster.afterCommand_of_untalk hseq hp)
  case nextByte =>
    intro hp h hbyte hlen
    have hmore : ¬(s.bm.byte = Config.terminator ∨ s.bm.bytes.length + 1 = Config.maxInput) :=
      not_or.2 ⟨hbyte, fun hmax => hlen (Nat.succ.inj hmax)⟩
    exact turn_host_of_read_end (BusMaster.inRead_of_input hseq hp) h (BusMaster.afterRead_of_more hseq hmore)
  case lastByte =>
    intro hp h hend
    have hlast : s.bm.byte = Config.terminator ∨ s.bm.bytes.length + 1 = Config.maxInput :=
      hend.imp_right (congrArg Nat.succ)
    exact turn_host_of_read_end (BusMaster.inRead_of_input hseq hp) h (BusMaster.afterRead_of_last hseq hlast)

/-- Settles O47: the first part turn by turn, the second from what every run from a command's first step keeps. -/
theorem commandLeavesHandshakeToTheDrive : Obligations.CommandLeavesHandshakeToTheDrive := by
  refine ⟨fun s hc hn hd h2 h12 => ⟨⟨_, turn_host s, ?host⟩, fun e => ⟨_, turn_drive e s, s.driveStep_frame e⟩,
    ⟨_, exec_sync s, rfl, State.syncCable_inp_handshake hn hd⟩⟩, fun s t turns _ hs hturns hrun hc hp hsync => ?run⟩
  case host =>
    have hreleased : s.Released := ⟨hc, hn, hd, h2, h12⟩
    exact hreleased.hostStep.imp_right fun ⟨hseq, hphase, _, hn', hd', h2', h12'⟩ =>
      ⟨hseq, hphase, hn', hd', h2', h12'⟩
  case run =>
    obtain hone | ⟨-, hlatch⟩ := samplesTheDrive_of_run hs hturns hrun hc
    · exact absurd (BusMaster.pollTag_command_one hc hone) hp
    · obtain ⟨before, after, e, u, hsplit, hu, hl, hrel, hinp⟩ := hlatch hsync
      have hturn : turn (.drive e) u = .next (u.syncCable.setLoop .irqCheck) := by
        rw [turn_drive, State.driveStep_of_sync hl]
      rw [← hinp]
      exact ⟨before, after, e, u, _, hsplit, hu, hl, hrel.inCommand, hrel.nrfd, hrel.ndac, hturn, rfl,
        State.syncCable_inp_handshake hrel.nrfd hrel.ndac⟩

end Sys2Proof.Machine
end

section
/-! The drive loop (R240 to R245): its phases one turn each, and which turns move it to Halted. -/

namespace Sys2Proof.Machine

/-! ## The phases (R242, R244, R245) -/

theorem State.driveStep_of_tick {s : State} (h : s.loop = .tick) (e : CpuEvent) :
    s.driveStep e = s.tickBoth.setLoop .sync := by
  simp [State.driveStep, h]

theorem State.driveStep_of_irqCheck {s : State} (h : s.loop = .irqCheck) (e : CpuEvent) :
    s.driveStep e = s.offerInterrupt.setLoop .cpuStep := by
  simp [State.driveStep, h]

theorem State.driveStep_of_halted {s : State} (h : s.loop = .halted) (e : CpuEvent) : s.driveStep e = s := by
  simp [State.driveStep, h]

/-- The Tick phase is its two transactions, one after the other (R242). -/
theorem runInstrs_tick_tick (s : State) : runInstrs [.tick .via0, .tick .via1] s = .next s.tickBoth := rfl

/-! ## The phase belongs to the drive loop -/

/-- No transaction moves the drive loop. -/
theorem ExecEffect.loop {s t : State} {i : Instr} (h : ExecEffect s t i) : t.loop = s.loop := by
  cases h with
  | read k r => simp [State.cpuRead]
  | write k d r => simp [State.cpuWrite]
  | tick | deliver | portIn | reset => exact State.setVia_loop ..
  | answer | sync | hostWrite | cmd | readbyte | input => rfl

@[simp] theorem State.fail_loop (s : State) (tag : PollTag) : (s.fail tag).loop = s.loop := by
  cases h : s.bm.cleansUp
  · rw [State.fail_of_not_cleansUp s tag h]
  · rw [State.fail_of_cleansUp s tag h]

@[simp] theorem State.poll_loop (s : State) (tag : PollTag) (c : Bool) : (s.poll tag c).loop = s.loop := by
  obtain h | h | ⟨-, h⟩ | h := s.poll_cases tag c <;> simp [h]

@[simp] theorem State.commandStep11_loop (s : State) : s.commandStep11.loop = s.loop := by
  unfold State.commandStep11
  split <;> rfl

/-- No turn of the bus master moves the drive loop. -/
@[simp] theorem State.hostStep_loop (s : State) : s.hostStep.loop = s.loop := by
  generalize ht : s.hostStep = t
  cases hostEffect_hostStep ht with
  | poll tag c => exact s.poll_loop tag c
  | commandStep11 => exact s.commandStep11_loop
  | stutter | drive | latch | commandStep12 | readStep9 => rfl

@[simp] theorem State.requeue_loop (s : State) (k : ViaId) (ws : List Word) : (s.requeue k ws).loop = s.loop := by
  cases ws <;> rfl

/-- No queued list of transactions moves the drive loop. -/
theorem runTransactions_loop {k : ViaId} {ws : List Word} {s t : State} (h : runTransactions k ws s = .next t) :
    t.loop = s.loop := by
  unfold runTransactions at h
  split at h
  case h_1 => exact Host.Outcome.next.inj h ▸ rfl
  case h_2 =>
    split at h
    case h_1 more _ => exact (execEffect_of_next h).loop.trans (s.requeue_loop k more)
    case h_2 => cases h

/-- No line of the monitor moves the drive loop. -/
theorem runLine_loop {cs : List Char} {s t : State} (h : runLine cs s = .next t) : t.loop = s.loop := by
  unfold runLine at h
  split at h
  case h_1 => cases h
  case h_2 => exact (execEffect_of_next h).loop
  case h_3 => exact Host.Outcome.next.inj h ▸ rfl

/-! ## Halted (R245) -/

/-- Of the CPU's events the fatal error alone halts the loop. -/
theorem State.cpuEvent_halted_iff {s : State} (h : s.loop = .cpuStep) (e : CpuEvent) :
    (s.cpuEvent e).loop = .halted ↔ e = .fatal := by
  cases e with
  | read a =>
    simp only [State.cpuEvent, State.memRead]
    split <;> simp [State.cpuRead, h]
  | write a d =>
    simp only [State.cpuEvent, State.memWrite]
    split <;> simp [State.cpuWrite, h]
  | done | fatal => simp [State.cpuEvent]

/-- The drive loop is halted after its turn where it was before, or where the turn is a fatal error of the CPU step. -/
theorem State.driveStep_halted_iff (s : State) (e : CpuEvent) :
    (s.driveStep e).loop = .halted ↔ s.loop = .halted ∨ (s.loop = .cpuStep ∧ e = .fatal) := by
  cases h : s.loop with
  | cpuStep => simp [State.driveStep_of_cpuStep h, State.cpuEvent_halted_iff h]
  | tick => simp [State.driveStep_of_tick h]
  | sync => simp [State.driveStep_of_sync h]
  | irqCheck => simp [State.driveStep_of_irqCheck h]
  | halted => simp [State.driveStep_of_halted h, h]

/-- Among the outside world's turns, only a turn of the drive loop with the fatal event halts the loop. -/
theorem takeInput_halted_iff {i : Input} {s t : State} (h : takeInput i s = .next t) :
    t.loop = .halted ↔ s.loop = .halted ∨ (s.loop = .cpuStep ∧ i = .drive .fatal) := by
  cases i with
  | transactions k ws => simp [runTransactions_loop h]
  | drive e =>
    obtain rfl := Host.Outcome.next.inj h
    simp [State.driveStep_halted_iff]
  | host =>
    obtain rfl := Host.Outcome.next.inj h
    simp
  | line cs => simp [runLine_loop h]

/-- The same for the machine's own turns. -/
theorem State.ownTurn_halted_iff (s : State) :
    s.ownTurn.loop = .halted ↔ s.loop = .halted ∨
      (s.loop = .cpuStep ∧ Config.turn s.io.turns = .driveLoop ∧ Config.cpuEvent s.io.turns = .fatal) := by
  unfold State.ownTurn
  dsimp only
  split
  case h_1 hturn => simp [State.driveStep_halted_iff, hturn]
  case h_2 hturn => simp [hturn]

/-- A step ends in Halted exactly where it starts there, or where it is a fatal error of the CPU step, queued or the
machine's own. -/
theorem step_halted_iff {s t : State} (h : step s = .next t) :
    t.loop = .halted ↔ s.loop = .halted ∨ (s.loop = .cpuStep ∧
      ((∃ q, s.io.inputs = .drive .fatal :: q) ∨
        (s.io.inputs = [] ∧ Config.turn s.io.turns = .driveLoop ∧ Config.cpuEvent s.io.turns = .fatal))) := by
  cases hq : s.io.inputs with
  | nil =>
    obtain rfl := Host.Outcome.next.inj ((step_of_inputs_nil hq).symm.trans h)
    simp [State.ownTurn_halted_iff]
  | cons i q => simp [takeInput_halted_iff ((step_of_inputs_cons hq).symm.trans h)]

end Sys2Proof.Machine
end

section
/-! The obligations of the family on the drive loop. -/

namespace Sys2Proof.Machine

/-- Settles O50: both halves are read off what puts the loop in Halted after a step. -/
theorem haltedIsFinal : Obligations.HaltedIsFinal := fun _ _ h =>
  have hiff := step_halted_iff h
  ⟨fun hs => hiff.2 (.inl hs), fun hs ht => (hiff.1 ht).resolve_left hs⟩

/-- Settles O48, phase by phase. -/
theorem driveLoopCycle : Obligations.DriveLoopCycle := by
  intro s e
  refine ⟨fun h => ?done, fun h => ?fatal, fun h => ?tick, fun h => ?sync, fun h => ?irqCheck, fun h => ?halted⟩
  case done | fatal =>
    rw [turn_drive, State.driveStep_of_cpuStep h]
    rfl
  case tick =>
    refine ⟨s.tickBoth, runInstrs_tick_tick s, ?_⟩
    rw [turn_drive, State.driveStep_of_tick h]
    rfl
  case sync =>
    refine ⟨s.syncCable, exec_sync s, ?_⟩
    rw [turn_drive, State.driveStep_of_sync h]
    rfl
  case irqCheck =>
    refine ⟨s.irqLine, exec_irqline s, ?_⟩
    rw [turn_drive, State.driveStep_of_irqCheck h]
    rfl
  case halted => rw [turn_drive, State.driveStep_of_halted h]

end Sys2Proof.Machine
end

section
/-! Which transaction moves a flag of a VIA, and which flag it is (R266): one inversion for raising and lowering alike, and
the flags that each operation raises and lowers. -/

namespace Sys2Proof.Machine

/-! ## The transactions that reach a VIA's flags -/

/-- `FlagEffect v k w i`: transaction `i` makes `w` of `via[k]`, which held `v`, by an operation that reaches its flags. -/
inductive FlagEffect (v : Via) : ViaId → Via → Instr → Prop
  | read (k : ViaId) (r : Reg) : FlagEffect v k (v.afterRead r) (rdInstr k r)
  | write (k : ViaId) (d : Byte) (r : Reg) : FlagEffect v k (v.write d r) (wrInstr k d r)
  | tick (k : ViaId) : FlagEffect v k v.tick (.tick k)
  | deliver (k : ViaId) (l : CtrlLine) (b : Bool) : FlagEffect v k (v.ctrlIn l b) (deliverInstr k b l)
  | reset (k : ViaId) : FlagEffect v k .reset (.reset k)
  | sync (m : BusState) : FlagEffect v .via0 (driveWrite v m) .sync

/-- Where replacing `via[j]` moves a flag of `via[k]`, `j` is `k`. -/
theorem State.eq_of_flag_moved {s : State} {v : Via} {j k : ViaId} {n : Nat}
    (h : bit ((s.setVia v j).via k).ifr n ≠ bit (s.via k).ifr n) : j = k := by
  cases j <;> cases k
  case via0.via0 | via1.via1 => rfl
  case via0.via1 | via1.via0 => exact absurd rfl h

/-- A transaction that moves a flag of `via[k]` is one of `FlagEffect` on it. -/
theorem ExecEffect.flagEffect {s t : State} {i : Instr} {k : ViaId} {n : Nat} (h : ExecEffect s t i)
    (hn : bit (t.via k).ifr n ≠ bit (s.via k).ifr n) : FlagEffect (s.via k) k (t.via k) i := by
  cases h with
  | read j r =>
    rw [State.cpuRead, State.returning_via] at hn ⊢
    obtain rfl := State.eq_of_flag_moved hn
    exact State.setVia_via s _ j ▸ .read j r
  | write j d r =>
    rw [State.cpuWrite] at hn ⊢
    obtain rfl := State.eq_of_flag_moved hn
    exact State.setVia_via s _ j ▸ .write j d r
  | tick j =>
    obtain rfl := State.eq_of_flag_moved hn
    exact State.setVia_via s _ j ▸ .tick j
  | deliver j l b =>
    obtain rfl := State.eq_of_flag_moved hn
    exact State.setVia_via s _ j ▸ .deliver j l b
  | reset j =>
    obtain rfl := State.eq_of_flag_moved hn
    exact State.setVia_via s _ j ▸ .reset j
  | portIn _ j p e =>
    obtain rfl := State.eq_of_flag_moved hn
    simp at hn
  | sync =>
    cases k
    case via0 => exact .sync _
    case via1 => exact absurd rfl hn
  | answer | hostWrite | cmd | readbyte | input => simp at hn

/-- A flag that is set has one of the seven positions (R30). -/
theorem lt_seven_of_bit {x : BitVec 7} {n : Nat} (h : bit x n = true) : n < 7 := by
  by_contra hn
  simp [bit_of_le x n (Nat.le_of_not_lt hn)] at h

/-! ## What raises a flag -/

/-- The delivery on a line is a source of that line's flag. -/
theorem raises_deliverInstr (k : ViaId) (l : CtrlLine) (b : Bool) : Raises (deliverInstr k b l) k (flagBit l) := by
  cases l <;> simp [Raises, deliverInstr, flagBit]

/-- A delivery raises its own line's flag alone. -/
theorem Via.eq_flagBit_of_ctrlIn_raises {v : Via} {l : CtrlLine} {b : Bool} {n : Nat} (hv : bit v.ifr n = false)
    (hw : bit (v.ctrlIn l b).ifr n = true) : n = flagBit l := by
  rw [Via.ctrlIn_flag_bit v l b n (lt_seven_of_bit hw), hv] at hw
  simp only [Bool.false_or, Bool.and_eq_true, beq_iff_eq] at hw
  obtain ⟨⟨⟨hn, -⟩, -⟩, -⟩ := hw
  exact hn

/-- A tick raises Timer 1's flag alone. -/
theorem Via.eq_t1Flag_of_tick_raises {v : Via} {n : Nat} (hv : bit v.ifr n = false) (hw : bit v.tick.ifr n = true) :
    n = t1Flag := by
  rw [Via.bit_tick_ifr v (lt_seven_of_bit hw), hv] at hw
  simp only [Bool.false_or, Bool.and_eq_true, beq_iff_eq] at hw
  exact hw.1

/-- A Sync raises the flags of CA1 and CA2 alone. -/
theorem eq_flagBit_of_driveWrite_raises {v : Via} {m : BusState} {n : Nat} (hv : bit v.ifr n = false)
    (hw : bit (driveWrite v m).ifr n = true) : n = flagBit .ca1 ∨ n = flagBit .ca2 := by
  by_contra hn
  obtain ⟨h1, h2⟩ := not_or.1 hn
  simp [driveWrite_flag_bit v m (lt_seven_of_bit hw), hv, h1, h2] at hw

/-- Reads, writes and resets raise no flag; a delivery, a tick and a Sync raise their own. -/
theorem FlagEffect.raises {v w : Via} {k : ViaId} {i : Instr} {n : Nat} (h : FlagEffect v k w i)
    (hv : bit v.ifr n = false) (hw : bit w.ifr n = true) : Raises i k n := by
  have hn : n < 7 := lt_seven_of_bit hw
  cases h with
  | read => exact absurd (Via.bit_of_bit_afterRead hn hw) (Bool.eq_false_iff.1 hv)
  | write => exact absurd (Via.bit_of_bit_write hn hw) (Bool.eq_false_iff.1 hv)
  | reset => simp [Via.reset] at hw
  | tick =>
    obtain rfl := Via.eq_t1Flag_of_tick_raises hv hw
    simp [Raises, t1Flag]
  | deliver _ l b =>
    obtain rfl := Via.eq_flagBit_of_ctrlIn_raises hv hw
    exact raises_deliverInstr k l b
  | sync =>
    obtain rfl | rfl := eq_flagBit_of_driveWrite_raises hv hw <;> simp [Raises, flagBit]

/-! ## What lowers a flag -/

/-- The accesses of a port, CPU read and CPU write, clear its Cx1 flag always and its Cx2 flag in input mode (R120). -/
theorem lowers_of_portAccess {v : Via} {k : ViaId} {i : Instr} {p : Port} {n : Nat}
    (hi : i = rdInstr k (portReg p) ∨ ∃ d, i = wrInstr k d (portReg p)) (hv : bit v.ifr n = true)
    (hw : bit (v.clearPortFlags p).ifr n = false) : Lowers i k v n := by
  rw [Via.clearPortFlags_flags v p n (lt_seven_of_bit hv), hv, Bool.true_and, Bool.not_eq_false'] at hw
  cases p
  case a =>
    obtain rfl | ⟨rfl, hmode⟩ : n = 1 ∨ n = 0 ∧ v.inputMode .ca2 = true := by simpa using hw
    · exact .inr (.inr (.inl ⟨rfl, hi⟩))
    · exact .inr (.inl ⟨rfl, hmode, hi⟩)
  case b =>
    obtain rfl | ⟨rfl, hmode⟩ : n = 4 ∨ n = 3 ∧ v.inputMode .cb2 = true := by simpa using hw
    · exact .inr (.inr (.inr (.inr (.inl ⟨rfl, hi⟩))))
    · exact .inr (.inr (.inr (.inl ⟨rfl, hmode, hi⟩)))

/-- `v.IFR[m] <- 0` lowers flag `m` alone. -/
theorem Via.eq_of_lower_lowers {v : Via} {m n : Nat} (hv : bit v.ifr n = true) (hw : bit (v.lower m).ifr n = false) :
    n = m := by
  rw [Via.flagsLowered_lower v m n (lt_seven_of_bit hv), hv] at hw
  simpa using hw

/-- A write of IFR lowers flags of control lines alone, each where the byte has a 1 (R144). -/
theorem clearFlags_lowers {x : BitVec 7} {d : Byte} {n : Nat} (hx : bit x n = true)
    (hc : bit (clearFlags x d) n = false) : (n = 0 ∨ n = 1 ∨ n = 3 ∨ n = 4) ∧ bit d n = true := by
  rw [bit_clearFlags x d (lt_seven_of_bit hx), hx] at hc
  simpa only [Bool.true_and, Bool.not_eq_false', Bool.and_eq_true, Bool.or_eq_true, beq_iff_eq, or_assoc] using hc

/-- The three accesses of the timer (R125, R139, R141) are clears of Timer 1's flag. -/
theorem lowers_t1Flag {v : Via} {k : ViaId} {i : Instr}
    (hi : i = .rdT1lo k ∨ (∃ d, i = .wrT1hi k d) ∨ ∃ d, i = .wrT1lhi k d) : Lowers i k v t1Flag :=
  .inr (.inr (.inr (.inr (.inr (.inr ⟨rfl, hi⟩)))))

/-- Where a CPU read lowers a flag, it is a read of a port, or of T1LO. -/
theorem Via.lowers_of_afterRead {v : Via} {k : ViaId} {r : Reg} {n : Nat} (hv : bit v.ifr n = true)
    (hw : bit (v.afterRead r).ifr n = false) : Lowers (rdInstr k r) k v n := by
  cases r
  case pb => exact lowers_of_portAccess (p := .b) (.inl rfl) hv hw
  case pa => exact lowers_of_portAccess (p := .a) (.inl rfl) hv hw
  case t1lo =>
    obtain rfl := Via.eq_of_lower_lowers hv hw
    exact lowers_t1Flag (.inl rfl)
  all_goals exact absurd hv (Bool.eq_false_iff.1 hw)

/-- Where a CPU write lowers a flag, it is a write of a port, of IFR, of T1HI or of T1LHI. -/
theorem Via.lowers_of_write {v : Via} {k : ViaId} {d : Byte} {r : Reg} {n : Nat} (hv : bit v.ifr n = true)
    (hw : bit (v.write d r).ifr n = false) : Lowers (wrInstr k d r) k v n := by
  cases r
  case pb =>
    rw [Via.write, Via.writePort_flag_bit _ _ _ (lt_seven_of_bit hv)] at hw
    exact lowers_of_portAccess (p := .b) (.inr ⟨d, rfl⟩) hv hw
  case pa =>
    rw [Via.write, Via.writePort_flag_bit _ _ _ (lt_seven_of_bit hv)] at hw
    exact lowers_of_portAccess (p := .a) (.inr ⟨d, rfl⟩) hv hw
  case t1hi =>
    obtain rfl := Via.eq_of_lower_lowers (v := v) hv hw
    exact lowers_t1Flag (.inr (.inl ⟨d, rfl⟩))
  case t1lhi =>
    obtain rfl := Via.eq_of_lower_lowers (v := v) hv hw
    exact lowers_t1Flag (.inr (.inr ⟨d, rfl⟩))
  case ifr =>
    obtain ⟨hn, hd⟩ := clearFlags_lowers hv hw
    exact .inr (.inr (.inr (.inr (.inr (.inl ⟨hn, d, rfl, hd⟩)))))
  all_goals exact absurd hv (Bool.eq_false_iff.1 hw)

/-- A tick, a delivery and a Sync lower no flag: each only adds to the flags that stand. -/
theorem FlagEffect.lowers {v w : Via} {k : ViaId} {i : Instr} {n : Nat} (h : FlagEffect v k w i)
    (hv : bit v.ifr n = true) (hw : bit w.ifr n = false) : Lowers i k v n := by
  have hn : n < 7 := lt_seven_of_bit hv
  cases h with
  | read => exact Via.lowers_of_afterRead hv hw
  | write => exact Via.lowers_of_write hv hw
  | reset => exact .inl rfl
  | tick => simp [Via.bit_tick_ifr v hn, hv] at hw
  | deliver _ l b => simp [Via.ctrlIn_flag_bit v l b n hn, hv] at hw
  | sync m => simp [driveWrite_flag_bit v m hn, hv] at hw

end Sys2Proof.Machine
end

section
/-! The obligations of the family on the interrupt flags' sources and clears. -/

namespace Sys2Proof.Machine

/-- Settles O53: the flag moves, so the transaction is one of those that reach it. -/
theorem flagsRaisedOnlyByTheirSource : Obligations.FlagsRaisedOnlyByTheirSource := by
  intro i s t k n h hv hw
  have hmoved : bit (t.via k).ifr n ≠ bit (s.via k).ifr n := by simp [hv, hw]
  exact ((execEffect_of_next h).flagEffect hmoved).raises hv hw

/-- Settles O54, from the same inversion. -/
theorem flagsLoweredOnlyByTheirClears : Obligations.FlagsLoweredOnlyByTheirClears := by
  intro i s t k n h hv hw
  have hmoved : bit (t.via k).ifr n ≠ bit (s.via k).ifr n := by simp [hv, hw]
  exact ((execEffect_of_next h).flagEffect hmoved).lowers hv hw

end Sys2Proof.Machine
end

section
/-! A counter at 0 and a run of ticks with the latches at 0 (R160, R304), deliveries on a control line in output mode (R163,
R303), and what a VIA with no output bit drives (R190, R192, R290). -/

namespace Sys2Proof.Machine

/-! ## A stopped timer (R160, R304) -/

theorem Via.tick_of_stopped {v : Via} (h : v.t1c = 0#16) : v.tick = v := if_pos h

theorem Via.ticks_of_stopped {v : Via} (h : v.t1c = 0#16) (n : Nat) : Via.tick^[n] v = v :=
  Function.iterate_fixed (Via.tick_of_stopped h) n

/-- With nothing to reload, the counter runs down once, in either mode. -/
theorem countAfter_of_zero_latches (continuous : Bool) (c n : Nat) : countAfter continuous 0 c n = c - n := by
  unfold countAfter
  split
  case isTrue h =>
    obtain ⟨-, -, hle⟩ := h
    rw [Nat.zero_sub, Nat.sub_eq_zero_of_le hle]
  case isFalse => rfl

theorem Via.latches_eq_zero {v : Via} (hh : v.t1lh = 0x00#8) (hl : v.t1ll = 0x00#8) : v.latches = 0#16 := by
  rw [Via.latches, hh, hl]
  rfl

theorem Via.loadTimer_zero_t1c {v : Via} (h : v.t1ll = 0x00#8) : (v.loadTimer 0x00#8).t1c = 0#16 := by
  rw [Via.loadTimer_t1c, h]
  rfl

/-! ## A frozen level (R163, R303) -/

theorem exec_deliverInstr (k : ViaId) (b : Bool) (l : CtrlLine) (s : State) :
    exec (deliverInstr k b l) s = .next (s.setVia ((s.via k).ctrlIn l b) k) := by cases l <;> rfl

theorem Via.ctrlIn_of_outputMode {v : Via} {l : CtrlLine} (t : Bool) (h : v.inputMode l = false) : v.ctrlIn l t = v := by
  simp [Via.ctrlIn, h]

/-- However many deliveries a line in output mode gets, none has an effect. -/
theorem runInstrs_deliveries_of_outputMode {k : ViaId} {l : CtrlLine} {s : State} (h : (s.via k).inputMode l = false)
    (levels : List Bool) : runInstrs (levels.map (deliverInstr k · l)) s = .next s := by
  induction levels with
  | nil => rfl
  | cons b levels ih =>
    have hb : exec (deliverInstr k b l) s = .next s := by
      rw [exec_deliverInstr, Via.ctrlIn_of_outputMode b h, State.setVia_self]
    rw [List.map_cons, runInstrs_cons_of_next _ hb, ih]

theorem Via.setPcr_level (v : Via) (p : Byte) (l : CtrlLine) : ({ v with pcr := p } : Via).level l = v.level l :=
  Via.write_level v p .pcr l

/-- The delivery of the other level, in the direction that the polarity bit selects, sets the flag. -/
theorem Via.bit_ctrlIn_of_edge {v : Via} {l : CtrlLine} (hin : v.inputMode l = true) (hpol : v.polarity l = !v.level l) :
    bit (v.ctrlIn l (!v.level l)).ifr (flagBit l) = true := by
  rw [Via.ctrlIn_flag_bit_of_inputMode _ _ hin (flagBit_lt l), hpol]
  cases v.level l <;> simp

/-- R303 for either line: the first delivery after the return to input mode is compared with the level of before the output
mode. -/
theorem frozenLevel_compared_again {k : ViaId} {l : CtrlLine} {s : State} {p : Byte} (levels : List Bool)
    (hout : (s.via k).inputMode l = false) (hin : ({ s.via k with pcr := p } : Via).inputMode l = true)
    (hpol : ({ s.via k with pcr := p } : Via).polarity l = !(s.via k).level l) :
    ∃ t u, runInstrs (levels.map (deliverInstr k · l) ++ [.wrPcr k p]) s = .next t ∧
      (t.via k).level l = (s.via k).level l ∧ (t.via k).ifr = (s.via k).ifr ∧
      exec (deliverInstr k (!(s.via k).level l) l) t = .next u ∧
      bit (u.via k).ifr (flagBit l) = true ∧ (u.via k).level l = !(s.via k).level l := by
  have hrun : runInstrs (levels.map (deliverInstr k · l) ++ [.wrPcr k p]) s =
      .next (s.setVia { s.via k with pcr := p } k) := by
    rw [runInstrs_append_of_next _ (runInstrs_deliveries_of_outputMode hout levels)]
    exact runInstrs_write k p .pcr s
  have hlevel := (s.via k).setPcr_level p l
  refine ⟨_, _, hrun, ?level, ?flags, exec_deliverInstr k _ l _, ?flag, ?moved⟩
  all_goals simp only [State.setVia_via]
  case level => exact hlevel
  case flag =>
    rw [← hlevel] at hpol ⊢
    exact Via.bit_ctrlIn_of_edge hin hpol
  case moved => rw [Via.ctrlIn_level_self, hin, if_pos rfl]

/-! ## A VIA with no output bit -/

theorem Via.drivenByBit_of_input {v : Via} {n : Nat} (h : bit v.ddrb n = false) : v.drivenByBit n = .floating := by
  simp [Via.drivenByBit, h]

/-- With ATNA an input and CA1 false the gate is false too, so that nothing overrides NRFD and NDAC. -/
theorem driveRead_line_of_inputs {v : Via} (hddrb : v.ddrb = 0#8) (hca1 : v.ca1 = false) (l : BusLine) :
    (driveRead v).line l = .floating := by
  have hgate : v.gate = false := by simp [← Bool.not_eq_true, Via.gate_iff, hddrb, hca1]
  have hbit : ∀ n, v.drivenByBit n = .floating := fun n => Via.drivenByBit_of_input (by rw [hddrb, bit_ofNat_zero])
  cases l <;> simp [driveRead, BusState.line, hgate, hbit]

theorem driveRead_dio_of_inputs {v : Via} (hddra : v.ddra = 0#8) : (driveRead v).dio = 0#8 := by
  simp [driveRead, Via.portOut, Via.direction, hddra]

/-! The flags of CA1 and CA2 after a Sync, by the level that it leaves on the line. -/

theorem State.syncCable_flag_ca1 (s : State) : bit s.syncCable.via0.ifr 1 = (bit s.via0.ifr 1 ||
    (s.syncCable.via0.ca1 != s.via0.ca1 && s.syncCable.via0.ca1 == bit s.via0.pcr 0)) := by
  simpa [flagBit, Via.level, Via.polarity, Config.pcrCa1Pol] using
    driveWrite_flag_bit s.via0 (mergeBus (hostRead s.host) (driveRead s.via0)) (n := 1) (by decide)

theorem State.syncCable_flag_ca2 (s : State) : bit s.syncCable.via0.ifr 0 = (bit s.via0.ifr 0 ||
    (s.syncCable.via0.ca2 != s.via0.ca2 && s.syncCable.via0.ca2 == bit s.via0.pcr 2)) := by
  simpa [flagBit, Via.level, Via.polarity, Config.pcrCa2Pol] using
    driveWrite_flag_bit s.via0 (mergeBus (hostRead s.host) (driveRead s.via0)) (n := 0) (by decide)

section
variable {s : State} (hddrb : s.via0.ddrb = 0#8) (hca1 : s.via0.ca1 = false)
include hddrb hca1

/-- Where the drive asserts nothing, a line of the latch is asserted only if the host asserts it. -/
theorem State.syncCable_inp_ne_asserted_of_inputs {l : BusLine} (hhost : s.host.out.line l ≠ .asserted) :
    s.syncCable.host.inp.line l ≠ .asserted := by
  rw [Ne, State.syncCable_inp_asserted_iff, driveRead_line_of_inputs hddrb hca1, not_or]
  exact ⟨hhost, nofun⟩

/-- ATN released, CA1 stays false. -/
theorem State.syncCable_ca1_of_inputs (hatn : s.host.out.atn ≠ .asserted) : s.syncCable.via0.ca1 = false :=
  (driveWrite_level_ca1 _ _).trans
    (beq_false_of_ne (State.syncCable_inp_ne_asserted_of_inputs hddrb hca1 (l := .atn) hatn))

/-- NRFD released, CA2 goes high if it is in input mode. -/
theorem State.syncCable_ca2_of_inputs (hca2 : s.via0.ca2 = false) (hnrfd : s.host.out.nrfd ≠ .asserted) :
    s.syncCable.via0.ca2 = !bit s.via0.pcr 3 := by
  have hlevel : s.syncCable.via0.ca2 = if bit s.via0.pcr 3 then s.via0.ca2 else
      s.syncCable.host.inp.line .nrfd != .asserted := driveWrite_level_ca2 _ _
  rw [hlevel, hca2, bne_iff_ne.2 (State.syncCable_inp_ne_asserted_of_inputs hddrb hca1 (l := .nrfd) hnrfd)]
  cases bit s.via0.pcr 3 <;> rfl

/-- CA1 does not move, so its flag stands. -/
theorem State.syncCable_flag_ca1_of_inputs (hatn : s.host.out.atn ≠ .asserted) :
    bit s.syncCable.via0.ifr 1 = bit s.via0.ifr 1 := by
  rw [State.syncCable_flag_ca1, State.syncCable_ca1_of_inputs hddrb hca1 hatn, hca1, bne_self_eq_false, Bool.false_and,
    Bool.or_false]

/-- CA2 moves up or not at all, so its flag is raised in input mode with positive polarity alone. -/
theorem State.syncCable_flag_ca2_of_inputs (hca2 : s.via0.ca2 = false) (hnrfd : s.host.out.nrfd ≠ .asserted) :
    bit s.syncCable.via0.ifr 0 = (bit s.via0.ifr 0 || (!bit s.via0.pcr 3 && bit s.via0.pcr 2)) := by
  rw [State.syncCable_flag_ca2, State.syncCable_ca2_of_inputs hddrb hca1 hca2 hnrfd, hca2]
  cases bit s.via0.pcr 3 <;> simp

/-- R294 from any state in which `via[0]` drives nothing and its levels and flags are those of a reset. -/
theorem State.firstSync_of_inputs (hca2 : s.via0.ca2 = false) (hifr : s.via0.ifr = 0#7)
    (hnrfd : s.host.out.nrfd ≠ .asserted) (hatn : s.host.out.atn ≠ .asserted) :
    s.syncCable.via0.ca2 = (!bit s.via0.pcr 3) ∧
      bit s.syncCable.via0.ifr 0 = (!bit s.via0.pcr 3 && bit s.via0.pcr 2) ∧
      s.syncCable.via0.ca1 = false ∧ bit s.syncCable.via0.ifr 1 = false := by
  refine ⟨State.syncCable_ca2_of_inputs hddrb hca1 hca2 hnrfd, ?flag2, State.syncCable_ca1_of_inputs hddrb hca1 hatn, ?flag1⟩
  case flag2 =>
    rw [State.syncCable_flag_ca2_of_inputs hddrb hca1 hca2 hnrfd, hifr, bit_ofNat_zero, Bool.false_or]
  case flag1 => rw [State.syncCable_flag_ca1_of_inputs hddrb hca1 hatn, hifr, bit_ofNat_zero]

end

theorem runInstrs_reset_wrPcr (p : Byte) (s : State) :
    runInstrs [.reset .via0, .wrPcr .via0 p] s = .next (s.setVia { Via.reset with pcr := p } .via0) :=
  runInstrs_pair (exec_reset .via0 s) (exec_wrPcr .via0 p _)

end Sys2Proof.Machine
end

section
/-! The obligations of the family on reset and the hazards. -/

namespace Sys2Proof.Machine

/-- Settles O22: a load of zero stops the timer, and with both latches at 0 there is nothing to reload. -/
theorem zeroLoadNeverFires : Obligations.ZeroLoadNeverFires := by
  refine fun k s n hll => ⟨?load, fun hlh => ⟨_, runInstrs_ticks k n s, ?count⟩⟩
  case load =>
    have hstop := Via.loadTimer_zero_t1c hll
    refine ⟨s.setVia ((s.via k).loadTimer 0x00#8) k, _, exec_wrT1hi k _ s, runInstrs_ticks k n _, ?_⟩
    rw [State.setVia_via, Via.ticks_of_stopped hstop, State.setVia_setVia, State.setVia_via]
    exact ⟨rfl, bit_setBit_same _ t1Flag false (by decide), hstop⟩
  case count =>
    rw [State.setVia_via, Via.ticks_count, Via.latches_eq_zero hlh hll]
    exact countAfter_of_zero_latches _ _ n

/-- Settles O25: CA2 and CB2 are in output mode while their PCR output bit is 1. -/
theorem frozenLevelSurvivesOutputMode : Obligations.FrozenLevelSurvivesOutputMode := fun _ _ levels _ =>
  ⟨fun hout hin hpol => frozenLevel_compared_again (l := .ca2) levels (congrArg Bool.not hout) (congrArg Bool.not hin) hpol,
    fun hout hin hpol => frozenLevel_compared_again (l := .cb2) levels (congrArg Bool.not hout) (congrArg Bool.not hin) hpol⟩

/-- Settles O36: after a reset the drive asserts no line, so NRFD and ATN reach CA2 and CA1 as the host left them. -/
theorem firstSyncAfterReset : Obligations.FirstSyncAfterReset := fun s p hnrfd hatn =>
  ⟨_, (runInstrs_append_of_next [.sync] (runInstrs_reset_wrPcr p s)).trans (runInstrs_cons_of_next [] (exec_sync _)),
    State.firstSync_of_inputs rfl rfl rfl rfl hnrfd hatn⟩

/-- Settles O30: after a reset no flag is set and every port bit is an input. -/
theorem viaReset : Obligations.ViaReset := by
  refine fun k s => ⟨changesVia_of_exec (exec_reset k s) rfl, ⟨_, runInstrs_pair (exec_reset k s) (exec_rdIfr k _), ?ifr⟩,
    ⟨_, runInstrs_pair (exec_reset k s) (exec_chkirq k _), ?irq⟩,
    ⟨_, exec_reset .via0 s, driveRead_line_of_inputs rfl rfl, driveRead_dio_of_inputs rfl⟩, decode_encode (.reset k)⟩
  case ifr =>
    rw [State.cpuRead, State.setVia_via]
    rfl
  case irq =>
    rw [State.setVia_via]
    rfl

end Sys2Proof.Machine
end
